-- ==== Sys2Proof/Word.lean ====
section
/-! DEFINITION. The word types of Riluz and their plainest arithmetic (00_scope.md "Notation", R8, R10). -/

namespace Sys2Proof

/-- A byte. -/
abbrev Byte := BitVec 8
/-- A register (R23). -/
abbrev Word := BitVec 32

/-- Bits [hi:lo] of a number. -/
def bits (v hi lo : Nat) : Nat := v / 2 ^ lo % 2 ^ (hi + 1 - lo)

/-- Bit `i` of a number. -/
def bit (v i : Nat) : Bool := v / 2 ^ i % 2 == 1

/-- Little-endian number of a byte list (R8). -/
def leNat : List Byte → Nat
  | [] => 0
  | b :: bs => b.toNat + 256 * leNat bs

/-- `n` little-endian bytes of a number (R8). -/
def leBytes : Nat → Nat → List Byte
  | 0, _ => []
  | n + 1, v => BitVec.ofNat 8 v :: leBytes n (v / 256)

/-- Little-endian field of `n` bytes at offset `o` of a byte list; bytes beyond the end read 0 (R49). -/
def fld (bs : List Byte) (o n : Nat) : Nat := leNat ((bs.drop o).take n)

/-- The signed value of the low `w` bits of a number. -/
def sInt (w v : Nat) : Int := if v % 2 ^ w < 2 ^ (w - 1) then (v % 2 ^ w : Nat) else (v % 2 ^ w : Nat) - (2 ^ w : Nat)

/-- The low `w` bits of an integer, two's complement. -/
def uInt (w : Nat) (i : Int) : Nat := (i % (2 ^ w : Nat)).toNat

/-- sat(x, lo, hi) of the notation. -/
def sat (x lo hi : Int) : Int := if x < lo then lo else if hi < x then hi else x

/-- rne(n / d) of the notation, for d above 0: nearest, ties to even. -/
def rneDiv (n d : Int) : Int :=
  let q := n / d
  let r := 2 * (n % d)
  if r < d then q else if d < r then q + 1 else if q % 2 = 0 then q else q + 1

/-- `a` precedes `b` for 32-bit sequence numbers (R10). -/
def precedes (a b : Nat) : Bool :=
  let d := (b + 2 ^ 32 - a % 2 ^ 32) % 2 ^ 32
  1 ≤ d && d ≤ 2 ^ 31 - 1

/-- ceil(a / b). -/
def ceilDiv (a b : Nat) : Nat := (a + b - 1) / b

/-- Sum of a list of numbers of `Nat`. -/
def sumNat (l : List Nat) : Nat := l.foldl (· + ·) 0

end Sys2Proof
end

