-- ==== Sys2Proof/Syntax.lean ====
section
/-! DEFINITION. The commands of Riluz: one constructor of `Instr` for each row of spec/opcode_table.json, with the row's operands. What the
environment decides (an analogue outcome, data that comes from outside, the fact that a write lands in a hand-over cycle) is an operand. -/

namespace Sys2Proof

/-- Where a whole letter comes from: a letter ring (R44) or the forward buffer of a side (R405). -/
inductive LetterSrc where
  | ring (n : Fin 32)
  | side (s : Fin 2)
  deriving DecidableEq, Repr

/-- What the memories and tiles did during one line time. The default is "nothing went wrong". -/
structure LineEnv where
  /-- Wrong pixels: physical tile, column within its slot, value the right level is XORed with (R139). -/
  tileErr : List (Nat × Nat × Byte) := []
  /-- Composition reads of the planned line that were poisoned: device addresses (R495). -/
  composePoison : List Nat := []
  /-- Glyph pool reads of the planned line that were uncorrectable: scratch addresses (R518). -/
  glyphUncorr : List Nat := []
  /-- Lead ring writes of the composed line that were poisoned: device addresses (R495). -/
  leadWritePoison : List Nat := []
  /-- 256-byte units of the lead ring slot whose read by the splitter was poisoned (R495). -/
  leadReadPoison : List Nat := []
  /-- Rows and 8-byte words of the delay ring read that were uncorrectable (R518). -/
  delayUncorr : List (Nat × Nat) := []
  /-- Rows and columns of beam table entries whose read was uncorrectable (R518). -/
  beamUncorr : List (Nat × Nat) := []
  /-- Scratch addresses of words in which a read corrected a single-bit error (R517). -/
  corrected : List Nat := []
  /-- Rows and strips of the line time just ended whose segment was not sent whole (R334); none says that it is those which the ticks have not
  sent whole (log 38). -/
  unsent : Option (List (Nat × Nat)) := some []
  /-- Rows of HBM activated: channel, pseudo channel, bank, row (R491). -/
  activates : List (Nat × Nat × Nat × Nat) := []
  /-- Scratch masters that lost an arbitration (R514). -/
  conflicts : List Nat := []
  /-- HBM reads that the stacks reported as corrected (R495). -/
  hbmCorrected : Nat := 0
  deriving DecidableEq, Repr

/-- A failed memory request of a command: a poisoned HBM request (its device address, and whether it was a write), a scratch word that a read
found uncorrectable, a scratch word whose write was lost to port A, where `jlink` says that the master there was JLINK and not SPLIT (scratch
addresses), and a vault word that the read of a key found uncorrectable (R495, R513, R516, R518, R527). -/
inductive MemFault where
  | poisoned (a : Nat) (write : Bool)
  | uncorrectable (a : Nat)
  | writeLost (a : Nat) (jlink : Bool)
  | keyUncorrectable (word : Nat)
  deriving DecidableEq, Repr

/-- What the memories reported of a command's requests: how many HBM reads the stacks corrected (R495), the scratch addresses of words in which a
read corrected a single-bit error (R517), the scratch masters that lost an arbitration (R514), and the requests that failed. The default is
"nothing went wrong". -/
structure MemRep where
  corrected : Nat := 0
  single : List Nat := []
  lost : List Nat := []
  faults : List MemFault := []
  deriving DecidableEq, Repr

/-- What the host and the memories answered to the data move of a descriptor (R544): host read completions with EP, as offset and length in the
buffer, and what the memories reported. -/
structure MoveRep where
  ep : List (Nat × Nat) := []
  mem : MemRep := {}
  deriving DecidableEq, Repr

/-- A request to a compressor: source and destination regions and PARAM (R101, R111). -/
structure CmpReq where
  src : Nat
  srcLen : Nat
  dst : Nat
  dstLen : Nat
  param : Nat
  deriving DecidableEq, Repr

/-- A BAR2 access: a read of `n` bytes or a write of bytes. -/
inductive Bar2Op where
  | read (n : Nat)
  | write (bytes : List Byte)
  deriving DecidableEq, Repr

/-- ECC_CORRECTED: a read corrected the word at a scratch address, or the 1 ms interval of a physical bank ends (R517). -/
inductive EccEvent where
  | read (a : BitVec 25)
  | intervalEnds (bank : Fin 68)
  deriving DecidableEq, Repr

/-- A configuration write of the host: the function's power state, Max_Payload_Size (128 bytes times 2 to the code), Max_Read_Request_Size (the
same), and the enables of ECRC generation and checking (R533, R613). -/
inductive ConfigOp where
  | power (d3hot : Bool)
  | maxPayload (code : Fin 3)
  | maxRead (code : Fin 6)
  | ecrc (generate check : Bool)
  deriving DecidableEq, Repr

/-- The kind of a JTAG instruction (R649). -/
inductive JtagOp where
  | bypass
  | idcode
  | samplePreload (pins load : List Bool)
  | extest (pins load : List Bool)
  | blankToDevelop
  | otherTest (code : Nat)
  deriving DecidableEq, Repr

/-- Why a lane's bring-up failed (R369, R358). -/
inductive TrainWhy where
  | timeout
  | order
  | freq
  deriving DecidableEq, Repr

/-- The outcome a stack reports for a row repair (R506). -/
inductive RepairOutcome where
  | ok
  | noSpare
  | failed
  deriving DecidableEq, Repr

/-- The cause of a wake event, in the coding of LAST_WAKE (R611, R631). -/
inductive WakeCause where
  | register
  | memory
  | job
  | pressRun
  | splice
  | network
  | peer
  | d3Exit
  deriving DecidableEq, Repr

/-- The commands: one constructor for each row of spec/opcode_table.json, in its order. -/
inductive Instr where
  | registerWrite (addr : BitVec 24) (data : List (Option Byte)) (late : Bool)
  | unmapped (write : Bool) (addr : BitVec 24)
  | readClear (addr : BitVec 24) (enables : List Bool)
  | irqRawClear (src : Fin 60) (value : Word)
  | holdoffExpiry (src : Fin 60)
  | commitGroup (src : Fin 60) (group : Byte) (late : Bool)
  | lineEvent (env : LineEnv)
  | letterArrival (src : LetterSrc) (mem : MemRep)
  | mailResume
  | decoderTake (dec : Fin 8)
  | decodeDone (dec : Fin 8) (mem : MemRep)
  | directBufferRoom (dec : Fin 8)
  | jobOpen (dec : Fin 8) (mem : MemRep)
  | stamp (dec : Fin 8)
  | postingTable (dec : Fin 8) (mem : MemRep)
  | direct (dec : Fin 8)
  | enclosure (dec : Fin 8)
  | frankDef (dec : Fin 8) (mem : MemRep)
  | glyphSet (dec : Fin 8)
  | jobClose (dec : Fin 8) (mem : MemRep)
  | fence (dec : Fin 8) (mem : MemRep)
  | countersignBatch (dec : Fin 8) (late : Bool) (mem : MemRep)
  | mailGo (slot : Fin 4) (late : Bool)
  | mailAbort (slot : Fin 4) (late : Bool)
  | decisionEdge
  | overlapCombine
  | overlapDeadline
  | echoSettle
  | verdict
  | rejectRecordDone
  | keepalive
  | countersignTake (late : Bool)
  | encoderEdge (a b : Bool)
  | encIndex
  | loopSample
  | triggerEdge (rising : Bool) (gapNs : Nat) (env : LineEnv)
  | postcardSend
  | postcard (body : List Byte)
  | coasting
  | stopped
  | pressRunFall
  | pressRunRise
  | clear
  | timeline
  | echo (lane : Fin 18) (msg : List Byte)
  | health (msg : List Byte)
  | zone (msg : List Byte) (queueFull : Bool)
  | link (msg : List Byte)
  | strayReturnMessage (msg : List Byte)
  | rxCodeword (lane : Fin 24) (levels : List (BitVec 2)) (queueFull : Bool)
  | laneLock (lane : Fin 24)
  | laneLost (lane : Fin 18)
  | swapTimeout (strip : Fin 16)
  | lcmdStart (lane : Fin 25)
  | lcmdStop (lane : Fin 25)
  | gstart (groups : BitVec 4)
  | cdrLock (lane : Fin 25) (ppm : BitVec 16)
  | blindSettleDone (lane : Fin 25)
  | trainingFrame (lane : Fin 24) (inverted : Bool) (fields : BitVec 48) (check : BitVec 16)
  | rxReady (lane : Fin 24)
  | holdDone (lane : Fin 24)
  | trainFail (lane : Fin 25) (why : TrainWhy)
  | esStart (ctrl : Word)
  | esDone (aborted : Bool) (errors : Nat) (compared : Nat)
  | helloSend (lane : Fin 6)
  | hello (lane : Fin 6) (header : BitVec 20) (content : List Byte)
  | peerDataCodeword (lane : Fin 6) (header : BitVec 20) (content : List Byte)
  | peerRetry (side : Fin 2)
  | peerLost (side : Fin 2)
  | verdictMessage (side : Fin 2) (body : List Byte)
  | mark (side : Fin 2) (body : List Byte)
  | peerCountersign (body : List Byte) (late : Bool)
  | tallyMessage (record : List Byte) (mem : MemRep)
  | letterFragment (side : Fin 2) (src : Fin 1024) (body : List Byte) (mem : MemRep)
  | timeWrap
  | beyondClear
  | slewDone
  | snap
  | endSession
  | masterLost
  | ethRxFrame (frame : List Byte) (fcsOk slip : Bool)
  | ethTxFrame
  | txtsTagRead
  | ethLinkChange (up : Bool)
  | zoneSample
  | zoneHold
  | zoneSafe
  | zoneStart (all : Bool) (zone : Fin 64) (late : Bool)
  | zoneStop (all : Bool) (zone : Fin 64)
  | restart (all : Bool) (zone : Fin 64) (late : Bool)
  | sampleFrame (results : List (Option (BitVec 16)))
  | move (axis : Fin 4)
  | home (axis : Fin 4)
  | relative (axis : Fin 4)
  | axisStep (axis : Fin 4)
  | axisStop (axis : Fin 4)
  | limitTrip (axis : Fin 4) (hi active : Bool) (us : Nat)
  | limitClear (axis : Fin 4) (hi lo : Bool) (hiUs loUs : Nat)
  | splice
  | spliceNRise
  | hbmRefresh (stack : Fin 2)
  | hbmTempRead (stack : Fin 2) (celsius : BitVec 8)
  | parityReplay (channel : Fin 32) (recurs : Bool) (recent : Nat) (requests : List (Fin 9 × Nat))
  | sweepStart (ctrl : Word)
  | sweepDone (errors : List Nat)
  | rateDone
  | repair
  | repairDone (outcome : RepairOutcome)
  | eccCorrected (ev : EccEvent)
  | retireCmd (bank : Fin 64)
  | retireThreshold (bank : Fin 68)
  | retired (uncorrectable : List Nat)
  | keyLoad (slot : Fin 16)
  | keyErase (slot : Fin 16)
  | vaultWindowAccess (write : Option Word) (uncorrectable : Bool)
  | wipeCmd
  | wiped
  | bar2Access (offset : BitVec 36) (op : Bar2Op) (mem : MemRep)
  | descFetch (ring : Fin 32) (descriptor : List Byte) (ep : Bool)
  | doorbell (ring : Fin 32)
  | ringResume (ring : Fin 32)
  | descWriteback (ring : Fin 32) (data : List Byte) (rep : MoveRep)
  | cqRoom (queue : Fin 8) (head : BitVec 16)
  | paceRequest (line : Fin 64)
  | softReq (lines : BitVec 16)
  | linkDown
  | poisoned
  | flr
  | cmpStart (unit : Fin 2)
  | cmpTake (unit : Fin 2) (album : Option CmpReq) (mem : MemRep)
  | cmpDone (unit : Fin 2) (readBackEqual : Bool) (mem : MemRep)
  | fresh (unit : Fin 9)
  | continue (unit : Fin 9)
  | stop (unit : Fin 9) (folded : Nat)
  | test (unit : Fin 9)
  | chkTestDone (unit : Fin 9) (pass : Bool)
  | chkScanDone (unit : Fin 9) (mem : MemRep)
  | albumScrubStart
  | albumScrubDone (mem : MemRep)
  | runWrite (unit : Fin 9) (hi : Bool) (value : Word)
  | substWrite (value : Word)
  | ledgerWrite (src : Fin 60) (mem : MemRep)
  | ledgerOverrun (src : Fin 60)
  | tallySplit
  | segmentClose
  | segmentPacked (failed : Bool)
  | segmentExport (mem : MemRep)
  | digest
  | replayStart
  | replayPacer (env : LineEnv)
  | replayEnd
  | powerIdle
  | wake (cause : WakeCause)
  | powerOff
  | powerOn (vbatLost : Bool)
  | perst
  | core
  | block (page : BitVec 6)
  | pllUnlock (domain : Fin 7)
  | pllRelock (domain : Fin 7)
  | lifeReq (key : Byte) (target : BitVec 3)
  | transition (verified : Bool)
  | tamper (samples : List Bool)
  | tamperClear
  | pcieLinkUp (width : BitVec 6) (speed : BitVec 3)
  | msixTableAccess (offset : BitVec 14) (write : Option Word)
  | configAccess (op : ConfigOp)
  | dirRest (axis : Fin 4)
  | writeDrainAge (channel : Fin 32) (pc : Fin 2)
  | jtagInstruction (op : JtagOp)
  | tapReset
  deriving DecidableEq, Repr

end Sys2Proof
end

