-- ==== Sys2Proof/Config.lean ====
section
/-! DEFINITION. What the spec leaves open, as constants without a value (log 3), and the constants of the silicon that the spec states. -/

namespace Sys2Proof.Config

/-- A register value that the spec leaves open, one for each use (log 3). -/
opaque freeWord : Nat → Sys2Proof.Word
/-- A byte of memory or data that the spec leaves open: use, position (log 3). -/
opaque freeByte : Nat → Nat → Sys2Proof.Byte
/-- Code of a correction's outcome in its CORRECTION record (R417, log 21). -/
opaque correctionOutcome : Nat → Sys2Proof.Byte

/-- Code of a requester in a POISONED_REQ record (R496, log 21). -/
opaque requesterCode : Nat → Sys2Proof.Byte

/-- Code of the master of a vault read in a record of R518 (R527, log 21). -/
opaque vaultMaster : Sys2Proof.Byte

/-- Event number of the record of a PLL that has relocked (R617, log 21). -/
opaque pllRelockEvent : Sys2Proof.Byte

/-- Event number of the record of a tile verdict (R149, log 21). -/
opaque tileVerdictEvent : Sys2Proof.Byte

/-- The token that the compressor's choose_token proposes at a position of a source, from the block size, the stride, the source and the
position: kind, count and distance (R102, log 3). -/
opaque chooseToken : Nat → Nat → List Sys2Proof.Byte → Nat → Nat × Nat × Nat

end Sys2Proof.Config
end

