-- ==== Sys2Proof/Machine/RegMap.lean ====
section
/-! DEFINITION. The register map of BAR0 (R22, R23, R28 and the register tables R41, R82, R109, R111, R153, R154, R185, R219, R249, R284,
R318, R353, R389, R408, R433, R434, R453, R454, R479, R508, R530, R531, R560, R561, R576, R605, R630, R631, R632): byte offsets by name, and
one row for each register with its access type (R27), its writable bits (R9), its reset value, its commit group (R30) and its hand-over
event (R35). A page is named by its interrupt source number of R40: 0 to 27 the pages of R22, 28 + n for RING[n]. -/

namespace Sys2Proof.Machine

/-- Page number of CHIP (R22). -/
def pCHIP : Nat := 0
/-- Page number of PWR (R22). -/
def pPWR : Nat := 1
/-- Page number of LIFE (R22). -/
def pLIFE : Nat := 2
/-- Page number of HOST (R22). -/
def pHOST : Nat := 3
/-- Page number of DMA (R22). -/
def pDMA : Nat := 4
/-- Page number of SCR (R22). -/
def pSCR : Nat := 5
/-- Page number of VAULT (R22). -/
def pVAULT : Nat := 6
/-- Page number of HBM (R22). -/
def pHBM : Nat := 7
/-- Page number of MAIL (R22). -/
def pMAIL : Nat := 8
/-- Page number of DEC (R22). -/
def pDEC : Nat := 9
/-- Page number of CMP (R22). -/
def pCMP : Nat := 10
/-- Page number of ALBUM (R22). -/
def pALBUM : Nat := 11
/-- Page number of TILE (R22). -/
def pTILE : Nat := 12
/-- Page number of FRANK (R22). -/
def pFRANK : Nat := 13
/-- Page number of SPLIT (R22). -/
def pSPLIT : Nat := 14
/-- Page number of PLACE (R22). -/
def pPLACE : Nat := 15
/-- Page number of SEAL (R22). -/
def pSEAL : Nat := 16
/-- Page number of WEB (R22). -/
def pWEB : Nat := 17
/-- Page number of JLINK (R22). -/
def pJLINK : Nat := 18
/-- Page number of LANE (R22). -/
def pLANE : Nat := 19
/-- Page number of PEER (R22). -/
def pPEER : Nat := 20
/-- Page number of TIME (R22). -/
def pTIME : Nat := 21
/-- Page number of ETH (R22). -/
def pETH : Nat := 22
/-- Page number of LOOP (R22). -/
def pLOOP : Nat := 23
/-- Page number of AXIS (R22). -/
def pAXIS : Nat := 24
/-- Page number of SAMPLE (R22). -/
def pSAMPLE : Nat := 25
/-- Page number of CHK (R22). -/
def pCHK : Nat := 26
/-- Page number of LEDGER (R22). -/
def pLEDGER : Nat := 27
/-- Source number of RING[n] (R40). -/
def pRING (n : Nat) : Nat := 28 + n

/-- First byte offset of a page (R22). -/
def pageBase (p : Nat) : Nat := if p < 28 then p * 0x1000 else 0x100000 + (p - 28) * 0x1000
/-- The page that a BAR0 byte offset lies in (R22). -/
def pageOf (a : Nat) : Option Nat :=
  let q := a / 0x1000
  if q < 28 then some q else if 0x100 ≤ q ∧ q < 0x120 then some (q - 0x100 + 28) else none
/-- Header registers of a page (R28). -/
def PAGE_ID (p : Nat) : Nat := pageBase p
def PAGE_CAP (p : Nat) : Nat := pageBase p + 0x004
def CTRL (p : Nat) : Nat := pageBase p + 0x008
def STATUS (p : Nat) : Nat := pageBase p + 0x00C
def IRQ_RAW (p : Nat) : Nat := pageBase p + 0x010
def IRQ_MASK (p : Nat) : Nat := pageBase p + 0x014
def IRQ_STAT (p : Nat) : Nat := pageBase p + 0x018
def COMMIT (p : Nat) : Nat := pageBase p + 0x01C
def ERR_CODE (p : Nat) : Nat := pageBase p + 0x020
def ERR_SEQ (p : Nat) : Nat := pageBase p + 0x024
def CONFLICT (p : Nat) : Nat := pageBase p + 0x028

def CHIP.IRQ_ROUTE (i : Nat) : Nat := 0x400 + 0x4 * i
def CHIP.IRQ_PEND (i : Nat) : Nat := 0x500 + 0x4 * i
def MAIL.LETTER_RINGS : Nat := 0x8100
def MAIL.REORDER_MAX : Nat := 0x8104
def MAIL.BUDGET_TILE : Nat := 0x8108
def MAIL.BUDGET_HBM : Nat := 0x810c
def MAIL.BUDGET_DEC : Nat := 0x8110
def MAIL.GO : Nat := 0x8114
def MAIL.ABORT : Nat := 0x8118
def MAIL.SLOT_JOB (i : Nat) : Nat := 0x8140 + 0x20 * i
def MAIL.SLOT_STATE (i : Nat) : Nat := 0x8144 + 0x20 * i
def MAIL.SLOT_NEXT_SEQ (i : Nat) : Nat := 0x8148 + 0x20 * i
def MAIL.SLOT_HELD (i : Nat) : Nat := 0x814c + 0x20 * i
def MAIL.SLOT_SUPPLY_LO (i : Nat) : Nat := 0x8150 + 0x20 * i
def MAIL.SLOT_SUPPLY_HI (i : Nat) : Nat := 0x8154 + 0x20 * i
def MAIL.SLOT_END_LO (i : Nat) : Nat := 0x8158 + 0x20 * i
def MAIL.SLOT_END_HI (i : Nat) : Nat := 0x815c + 0x20 * i
def MAIL.LETTERS : Nat := 0x81c0
def MAIL.DUPLICATES : Nat := 0x81c4
def MAIL.GAPS : Nat := 0x81c8
def MAIL.AUTH_FAILS : Nat := 0x81cc
def MAIL.REFUSED : Nat := 0x81d0
def MAIL.STARVED_LINES : Nat := 0x81d4
def DEC.DEC_EN : Nat := 0x9100
def DEC.DSTATE (i : Nat) : Nat := 0x9110 + 0x10 * i
def DEC.DSEQ (i : Nat) : Nat := 0x9114 + 0x10 * i
def DEC.DOUT (i : Nat) : Nat := 0x9118 + 0x10 * i
def DEC.DFAULTS (i : Nat) : Nat := 0x911c + 0x10 * i
def DEC.FAULT_JOB : Nat := 0x9190
def DEC.FAULT_SEQ : Nat := 0x9194
def DEC.FAULT_OFFSET : Nat := 0x9198
def DEC.FAULT_INFO : Nat := 0x919c
def DEC.BAD_CODES : Nat := 0x91a0
def DEC.FAR_DISTANCES : Nat := 0x91a4
def DEC.LENGTH_OVERRUNS : Nat := 0x91a8
def DEC.CHECK_MISMATCHES : Nat := 0x91ac
def CMP.SRC_LO (i : Nat) : Nat := 0xa100 + 0x40 * i
def CMP.SRC_HI (i : Nat) : Nat := 0xa104 + 0x40 * i
def CMP.SRC_LEN (i : Nat) : Nat := 0xa108 + 0x40 * i
def CMP.DST_LO (i : Nat) : Nat := 0xa10c + 0x40 * i
def CMP.DST_HI (i : Nat) : Nat := 0xa110 + 0x40 * i
def CMP.DST_LEN (i : Nat) : Nat := 0xa114 + 0x40 * i
def CMP.PARAM (i : Nat) : Nat := 0xa118 + 0x40 * i
def CMP.START (i : Nat) : Nat := 0xa11c + 0x40 * i
def CMP.RESULT_STATUS (i : Nat) : Nat := 0xa120 + 0x40 * i
def CMP.RESULT_LEN (i : Nat) : Nat := 0xa124 + 0x40 * i
def CMP.RESULT_CHECK (i : Nat) : Nat := 0xa128 + 0x40 * i
def CMP.RING_SEL (i : Nat) : Nat := 0xa12c + 0x40 * i
def CMP.JOBS (i : Nat) : Nat := 0xa130 + 0x40 * i
def CMP.BYTES_IN (i : Nat) : Nat := 0xa134 + 0x40 * i
def CMP.BYTES_OUT (i : Nat) : Nat := 0xa138 + 0x40 * i
def CMP.FAILS (i : Nat) : Nat := 0xa13c + 0x40 * i
def ALBUM.REGION_LO : Nat := 0xb100
def ALBUM.REGION_HI : Nat := 0xb104
def ALBUM.REGION_FRAMES : Nat := 0xb108
def ALBUM.FREE_FRAMES : Nat := 0xb10c
def ALBUM.SCRUB : Nat := 0xb110
def ALBUM.SCRUB_POS : Nat := 0xb114
def ALBUM.LOOKUP_SEL : Nat := 0xb118
def ALBUM.LOOKUP_INFO : Nat := 0xb11c
def ALBUM.LOOKUP_WIDTH : Nat := 0xb120
def ALBUM.LOOKUP_HEIGHT : Nat := 0xb124
def ALBUM.LOOKUP_CHECK : Nat := 0xb128
def ALBUM.SLOT_STAMPS (i : Nat) : Nat := 0xb140 + 0x4 * i
def ALBUM.SLOT_FRAMES (i : Nat) : Nat := 0xb150 + 0x4 * i
def ALBUM.EXPANDED : Nat := 0xb160
def ALBUM.FULLS : Nat := 0xb164
def ALBUM.SCRUBS : Nat := 0xb168
def ALBUM.SCRUB_FAILS : Nat := 0xb16c
def TILE.MAP (i : Nat) : Nat := 0xc100 + 0x4 * i
def TILE.LEAD_LO : Nat := 0xc180
def TILE.LEAD_HI : Nat := 0xc184
def TILE.LEAD_SIZE : Nat := 0xc188
def TILE.DIRECT_LO : Nat := 0xc18c
def TILE.DIRECT_HI : Nat := 0xc190
def TILE.DIRECT_SIZE : Nat := 0xc194
def TILE.COMPOSE_JOB : Nat := 0xc1a0
def TILE.COMPOSE_LINE_LO : Nat := 0xc1a4
def TILE.COMPOSE_LINE_HI : Nat := 0xc1a8
def TILE.POSTINGS : Nat := 0xc1ac
def TILE.POSTINGS_PEAK : Nat := 0xc1b0
def TILE.DAMAGE_LO (i : Nat) : Nat := 0xc1c0 + 0x8 * i
def TILE.DAMAGE_HI (i : Nat) : Nat := 0xc1c4 + 0x8 * i
def TILE.TSTATE (i : Nat) : Nat := 0xc200 + 0x4 * i
def TILE.LINES : Nat := 0xc290
def TILE.IDLE_LINES : Nat := 0xc294
def TILE.OVER_BUDGET_LINES : Nat := 0xc298
def TILE.PATROL_CHECKS : Nat := 0xc29c
def TILE.PATROL_MISMATCHES : Nat := 0xc2a0
def TILE.TAKEOVERS : Nat := 0xc2a4
def FRANK.GLYPH_LO : Nat := 0xd100
def FRANK.GLYPH_SIZE : Nat := 0xd104
def FRANK.GLYPH_FREE : Nat := 0xd108
def FRANK.CHECKPOINT : Nat := 0xd10c
def FRANK.RELOAD_SEL : Nat := 0xd110
def FRANK.RELOAD_LO : Nat := 0xd114
def FRANK.RELOAD_HI : Nat := 0xd118
def FRANK.VIEW_SEL : Nat := 0xd120
def FRANK.VIEW_INFO : Nat := 0xd124
def FRANK.VIEW_VALUE_LO : Nat := 0xd128
def FRANK.VIEW_VALUE_HI : Nat := 0xd12c
def FRANK.SLOT_FIELDS (i : Nat) : Nat := 0xd140 + 0x4 * i
def FRANK.SLOT_GLYPH_KIB (i : Nat) : Nat := 0xd150 + 0x4 * i
def FRANK.ASSIGNED : Nat := 0xd160
def FRANK.OVERFLOWS : Nat := 0xd164
def FRANK.MISSING_GLYPHS : Nat := 0xd168
def FRANK.ENCLOSURES : Nat := 0xd16c
def FRANK.ABSENT : Nat := 0xd170
def FRANK.LATE_SOURCES : Nat := 0xd174
def FRANK.RELOADS : Nat := 0xd178
def SPLIT.ROW_CFG : Nat := 0xe100
def SPLIT.DELAY_LO : Nat := 0xe104
def SPLIT.BEAM_LO : Nat := 0xe108
def SPLIT.HEALTH_CFG : Nat := 0xe10c
def SPLIT.BEAM_SEL : Nat := 0xe110
def SPLIT.BEAM_COUNT : Nat := 0xe114
def SPLIT.BEAM_DATA : Nat := 0xe118
def SPLIT.BEAM_WMASK : Nat := 0xe11c
def SPLIT.BEAM_STATUS : Nat := 0xe120
def SPLIT.LIVE_SEL : Nat := 0xe124
def SPLIT.LIVE_INFO : Nat := 0xe128
def SPLIT.TABLE_SEL : Nat := 0xe12c
def SPLIT.TABLE_VALUE : Nat := 0xe130
def SPLIT.SLOT_TABLE_JOB (i : Nat) : Nat := 0xe140 + 0x8 * i
def SPLIT.SLOT_TABLE_INFO (i : Nat) : Nat := 0xe144 + 0x8 * i
def SPLIT.LOG_USED : Nat := 0xe160
def SPLIT.LOG_PEAK : Nat := 0xe164
def SPLIT.LOG_OVERFLOWS : Nat := 0xe168
def SPLIT.NONLIVE_BEAMS : Nat := 0xe16c
def SPLIT.CLIPPED_PIXELS : Nat := 0xe170
def SPLIT.CLIPPED_LINES : Nat := 0xe174
def SPLIT.SUSPECT_MARKS : Nat := 0xe178
def SPLIT.HEALTH_REPORTS : Nat := 0xe17c
def SPLIT.PROTECTED_WRITES : Nat := 0xe180
def SPLIT.TABLE_MISSINGS : Nat := 0xe184
def SPLIT.IGNORED_REPORTS : Nat := 0xe188
def PLACE.OFFSET : Nat := 0xf100
def PLACE.ROW_SHIFT (i : Nat) : Nat := 0xf110 + 0x4 * i
def PLACE.FIRE (i : Nat) : Nat := 0xf130 + 0x4 * i
def PLACE.WEAVE_CFG : Nat := 0xf150
def PLACE.WEAVE_CAL : Nat := 0xf154
def PLACE.WEAVE_LIMIT : Nat := 0xf158
def PLACE.WEAVE_NOW : Nat := 0xf160
def PLACE.WEAVE_SAMPLE : Nat := 0xf164
def PLACE.X_NOW : Nat := 0xf168
def PLACE.OVL_CFG (i : Nat) : Nat := 0xf180 + 0x4 * i
def PLACE.OVL_PAIR (i j : Nat) : Nat := 0xf190 + 0x10 * i + 0x4 * j
def PLACE.RAMP (i : Nat) : Nat := 0xf200 + 0x4 * i
def PLACE.WEAVE_CHANGES : Nat := 0xf600
def PLACE.WEAVE_RANGES : Nat := 0xf604
def PLACE.WEAVE_STALES : Nat := 0xf608
def PLACE.SHARED_CELLS : Nat := 0xf60c
def PLACE.SHARED_VOIDS : Nat := 0xf610
def PLACE.DISAGREES : Nat := 0xf614
def PLACE.LATE_VERDICTS : Nat := 0xf618
def SEAL.READOUT : Nat := 0x10100
def SEAL.CS_RING : Nat := 0x10104
def SEAL.REJECT_CFG : Nat := 0x10108
def SEAL.CELL_SEL : Nat := 0x1010c
def SEAL.CELL_IDX : Nat := 0x10110
def SEAL.CELL_INFO : Nat := 0x10114
def SEAL.CELL_SEAL : Nat := 0x10118
def SEAL.SLOT_BASE (i : Nat) : Nat := 0x10140 + 0x8 * i
def SEAL.SLOT_INFLIGHT (i : Nat) : Nat := 0x10144 + 0x8 * i
def SEAL.CS_TAKEN : Nat := 0x10160
def SEAL.CS_CONFIRMED : Nat := 0x10164
def SEAL.CS_DISAGREE : Nat := 0x10168
def SEAL.CS_LATE : Nat := 0x1016c
def SEAL.CS_DROPPED : Nat := 0x10170
def SEAL.CELLS_WRITTEN : Nat := 0x10174
def SEAL.CELLS_VOIDED : Nat := 0x10178
def SEAL.CELLS_REJECTED : Nat := 0x1017c
def SEAL.SEGMENTS : Nat := 0x10180
def SEAL.ECHO_MISMATCHES : Nat := 0x10184
def SEAL.ECHO_MISSINGS : Nat := 0x10188
def SEAL.FRAMES_LOST : Nat := 0x1018c
def SEAL.ECHO_STRAYS : Nat := 0x10190
def SEAL.REJECT_RECORDS : Nat := 0x10194
def SEAL.REJECT_DROPPED : Nat := 0x10198
def SEAL.REJECT_QUEUE : Nat := 0x1019c
def WEB.SOURCE : Nat := 0x11100
def WEB.ENC_SCALE : Nat := 0x11104
def WEB.ENC_CFG : Nat := 0x11108
def WEB.Z_COUNTS : Nat := 0x1110c
def WEB.LOOP_CFG : Nat := 0x11110
def WEB.COMP : Nat := 0x11114
def WEB.TRACK_MAX : Nat := 0x11118
def WEB.ACCEL : Nat := 0x1111c
def WEB.ALONG : Nat := 0x11120
def WEB.RATE_MAX : Nat := 0x11124
def WEB.REVERSE_MAX : Nat := 0x11128
def WEB.STOP_TIME : Nat := 0x1112c
def WEB.TRIG_CFG : Nat := 0x11130
def WEB.TRIG_OUT : Nat := 0x11134
def WEB.PC_CFG : Nat := 0x11138
def WEB.TL_PERIOD : Nat := 0x1113c
def WEB.LINE_TIME_LO : Nat := 0x11140
def WEB.LINE_TIME_HI : Nat := 0x11144
def WEB.POS_LO : Nat := 0x11148
def WEB.POS_HI : Nat := 0x1114c
def WEB.RATE : Nat := 0x11150
def WEB.TRACK_ERR : Nat := 0x11154
def WEB.TRACK_PEAK : Nat := 0x11158
def WEB.ENC_COUNT : Nat := 0x1115c
def WEB.PC_SEQ : Nat := 0x11160
def WEB.ENC_FAULTS : Nat := 0x11170
def WEB.REVERSALS : Nat := 0x11174
def WEB.PC_GAPS : Nat := 0x11178
def WEB.TRIG_IGNORED : Nat := 0x1117c
def WEB.OVERSPEED_LINES : Nat := 0x11180
def WEB.TL_FAULTS : Nat := 0x11184
def JLINK.LANE_MAP (i : Nat) : Nat := 0x12100 + 0x4 * i
def JLINK.LINK_CFG : Nat := 0x12140
def JLINK.GROUP_INFO (i : Nat) : Nat := 0x12150 + 0x4 * i
def JLINK.LSTATE (i : Nat) : Nat := 0x12160 + 0x10 * i
def JLINK.CORR_SYMS (i : Nat) : Nat := 0x12164 + 0x10 * i
def JLINK.UNCORR (i : Nat) : Nat := 0x12168 + 0x10 * i
def JLINK.HEAD_UNCORR (i : Nat) : Nat := 0x1216c + 0x10 * i
def JLINK.TAKEOVERS : Nat := 0x12280
def JLINK.TAKEOVER_FAILS : Nat := 0x12284
def JLINK.NO_RESERVES : Nat := 0x12288
def JLINK.ABANDONED : Nat := 0x1228c
def JLINK.STRAY_MSGS : Nat := 0x12290
def JLINK.TELEM_GAPS : Nat := 0x12294
def JLINK.LINE_CAP6 : Nat := 0x12298
def JLINK.LINE_CAP8 : Nat := 0x1229c
def LANE.RATE_CFG : Nat := 0x13100
def LANE.TRAIN_CFG : Nat := 0x13104
def LANE.ADAPT_CFG : Nat := 0x13108
def LANE.GSTART : Nat := 0x1310c
def LANE.ORDER (i : Nat) : Nat := 0x13110 + 0x4 * i
def LANE.ES_CTRL : Nat := 0x13120
def LANE.ES_POINT : Nat := 0x13124
def LANE.ES_STATUS : Nat := 0x13128
def LANE.ES_ERRORS : Nat := 0x1312c
def LANE.ES_BITS_LO : Nat := 0x13130
def LANE.ES_BITS_HI : Nat := 0x13134
def LANE.DFE_SEL : Nat := 0x13138
def LANE.DFE_VALUE : Nat := 0x1313c
def LANE.LCFG (i : Nat) : Nat := 0x13200 + 0x40 * i
def LANE.LCMD (i : Nat) : Nat := 0x13204 + 0x40 * i
def LANE.LSTAT (i : Nat) : Nat := 0x13208 + 0x40 * i
def LANE.TX_TAPS (i : Nat) : Nat := 0x1320c + 0x40 * i
def LANE.TX_NOW (i : Nat) : Nat := 0x13210 + 0x40 * i
def LANE.RX_EQ (i : Nat) : Nat := 0x13214 + 0x40 * i
def LANE.RX_PPM (i : Nat) : Nat := 0x13218 + 0x40 * i
def LANE.REQS (i : Nat) : Nat := 0x1321c + 0x40 * i
def LANE.FREEZES (i : Nat) : Nat := 0x13220 + 0x40 * i
def LANE.TRAIN_FAILS (i : Nat) : Nat := 0x13224 + 0x40 * i
def LANE.ELASTIC_DROPS (i : Nat) : Nat := 0x13228 + 0x40 * i
def PEER.CHAIN_CFG : Nat := 0x14100
def PEER.LINK_CFG : Nat := 0x14104
def PEER.TIMING : Nat := 0x14108
def PEER.FWD_LO : Nat := 0x1410c
def PEER.FWD_HI : Nat := 0x14110
def PEER.FWD_SIZE : Nat := 0x14114
def PEER.SIDE (i : Nat) : Nat := 0x14120 + 0x4 * i
def PEER.POS_DEV (i : Nat) : Nat := 0x14140 + 0x4 * i
def PEER.MSGS_SENT : Nat := 0x14180
def PEER.MSGS_TAKEN : Nat := 0x14184
def PEER.PASSED : Nat := 0x14188
def PEER.RETRANSMITS : Nat := 0x1418c
def PEER.UNCORR : Nat := 0x14190
def PEER.DROPPED : Nat := 0x14194
def PEER.FWD_LETTERS : Nat := 0x14198
def PEER.UNROUTED : Nat := 0x1419c
def PEER.MSG_BADS : Nat := 0x141a0
def PEER.LOSSES : Nat := 0x141a4
def TIME.INC_NS : Nat := 0x15100
def TIME.INC_FRAC : Nat := 0x15104
def TIME.RATE_LIMIT : Nat := 0x15108
def TIME.SLEW_BOUND : Nat := 0x1510c
def TIME.CORR_LO : Nat := 0x15110
def TIME.CORR_HI : Nat := 0x15114
def TIME.CORR_MODE : Nat := 0x15118
def TIME.MASTER_CFG : Nat := 0x1511c
def TIME.SNAP : Nat := 0x15120
def TIME.NOW_EPOCH : Nat := 0x15124
def TIME.NOW_NS : Nat := 0x15128
def TIME.NOW_FRAC : Nat := 0x1512c
def TIME.REM_LO : Nat := 0x15130
def TIME.REM_HI : Nat := 0x15134
def TIME.SESSION : Nat := 0x15138
def TIME.CORRECTIONS : Nat := 0x15160
def TIME.STEPS : Nat := 0x15164
def TIME.STEP_REFUSALS : Nat := 0x15168
def TIME.BEYONDS : Nat := 0x1516c
def TIME.MASTER_LOSSES : Nat := 0x15170
def TIME.SYNCS : Nat := 0x15174
def ETH.MAC_LO : Nat := 0x16100
def ETH.MAC_HI : Nat := 0x16104
def ETH.RX_RING : Nat := 0x16108
def ETH.TX_RING : Nat := 0x1610c
def ETH.PC_DEST_LO : Nat := 0x16110
def ETH.PC_DEST_HI : Nat := 0x16114
def ETH.LAT : Nat := 0x16118
def ETH.LINK : Nat := 0x1611c
def ETH.TXTS_NS : Nat := 0x16120
def ETH.TXTS_FRAC : Nat := 0x16124
def ETH.TXTS_TAG : Nat := 0x16128
def ETH.TXTS_LEVEL : Nat := 0x1612c
def ETH.RX_FRAMES : Nat := 0x16140
def ETH.TX_FRAMES : Nat := 0x16144
def ETH.RX_FCS_BAD : Nat := 0x16148
def ETH.RX_DROPPED : Nat := 0x1614c
def ETH.TS_DROPPED : Nat := 0x16150
def ETH.PC_SENT : Nat := 0x16154
def ETH.PC_TAKEN : Nat := 0x16158
def LOOP.SAMPLE_CFG : Nat := 0x17100
def LOOP.RATE_REF : Nat := 0x17104
def LOOP.FAULT_CFG : Nat := 0x17108
def LOOP.BANK : Nat := 0x1710c
def LOOP.ZONE_CMD : Nat := 0x17110
def LOOP.DRIVE_SEQ : Nat := 0x17114
def LOOP.SAMPLES : Nat := 0x171e0
def LOOP.LOSTS : Nat := 0x171e4
def LOOP.FROZENS : Nat := 0x171e8
def LOOP.RESTARTS : Nat := 0x171ec
def LOOP.TELEM_DROPS : Nat := 0x171f0
def LOOP.STRAY_ZONES : Nat := 0x171f4
def LOOP.BANK_WRITES_DROPPED : Nat := 0x171f8
def LOOP.SWAPS : Nat := 0x171fc
def LOOP.KP (i j : Nat) : Nat := 0x17300 + 0x20 * i + 0x8 * j
def LOOP.KI (i j : Nat) : Nat := 0x17304 + 0x20 * i + 0x8 * j
def LOOP.OUT_LIM (i : Nat) : Nat := 0x17340 + 0x4 * i
def LOOP.KA (i : Nat) : Nat := 0x17348 + 0x4 * i
def LOOP.RECIP (i j : Nat) : Nat := 0x17360 + 0x40 * i + 0x4 * j
def LOOP.GAIN (i j k : Nat) : Nat := 0x17400 + 0x180 * i + 0x80 * j + 0x4 * k
def LOOP.ZONE_REF (i : Nat) : Nat := 0x17800 + 0x10 * i
def LOOP.ZONE_LIM (i : Nat) : Nat := 0x17804 + 0x10 * i
def LOOP.ZONE_SAFE (i : Nat) : Nat := 0x17808 + 0x10 * i
def LOOP.ZONE_COLS (i : Nat) : Nat := 0x1780c + 0x10 * i
def LOOP.ZSTATE (i : Nat) : Nat := 0x17c00 + 0x4 * i
def LOOP.ZOUT (i : Nat) : Nat := 0x17d00 + 0x4 * i
def SAMPLE.CFG : Nat := 0x19100
def SAMPLE.CMD (i : Nat) : Nat := 0x19140 + 0x4 * i
def SAMPLE.VALUE (i : Nat) : Nat := 0x19180 + 0x4 * i
def SAMPLE.FRAMES : Nat := 0x191c0
def SAMPLE.TIMEOUTS : Nat := 0x191c4
def AXIS.CFG (i : Nat) : Nat := 0x18100 + 0x40 * i
def AXIS.C0 (i : Nat) : Nat := 0x18104 + 0x40 * i
def AXIS.CMIN (i : Nat) : Nat := 0x18108 + 0x40 * i
def AXIS.ACCEL (i : Nat) : Nat := 0x1810c + 0x40 * i
def AXIS.EDECEL (i : Nat) : Nat := 0x18110 + 0x40 * i
def AXIS.TRAVEL (i : Nat) : Nat := 0x18114 + 0x40 * i
def AXIS.HOME_INTERVAL (i : Nat) : Nat := 0x18118 + 0x40 * i
def AXIS.HOME_CFG (i : Nat) : Nat := 0x1811c + 0x40 * i
def AXIS.TARGET (i : Nat) : Nat := 0x18120 + 0x40 * i
def AXIS.MODE (i : Nat) : Nat := 0x18124 + 0x40 * i
def AXIS.STOP (i : Nat) : Nat := 0x18128 + 0x40 * i
def AXIS.LIMIT_CLEAR (i : Nat) : Nat := 0x1812c + 0x40 * i
def AXIS.POS (i : Nat) : Nat := 0x18130 + 0x40 * i
def AXIS.ASTATE (i : Nat) : Nat := 0x18134 + 0x40 * i
def AXIS.RESULT (i : Nat) : Nat := 0x18138 + 0x40 * i
def AXIS.TRIPS (i : Nat) : Nat := 0x1813c + 0x40 * i
def AXIS.SPLICE_CFG : Nat := 0x18200
def AXIS.SAFE_POS : Nat := 0x18204
def AXIS.SPAN : Nat := 0x18208
def AXIS.SPLICE_C0 : Nat := 0x1820c
def AXIS.SPLICE_CMIN : Nat := 0x18210
def AXIS.SPLICE_TIME : Nat := 0x18214
def AXIS.SPLICES : Nat := 0x18218
def HBM.RATE : Nat := 0x7100
def HBM.SCHED : Nat := 0x7104
def HBM.ACT_CFG : Nat := 0x7108
def HBM.REFRESH_CFG : Nat := 0x710c
def HBM.MAILBAG_LO : Nat := 0x7110
def HBM.MAILBAG_HI : Nat := 0x7114
def HBM.MAILBAG_SIZE : Nat := 0x7118
def HBM.MAILBAG_FREE : Nat := 0x711c
def HBM.DELAY_SEL : Nat := 0x7120
def HBM.DELAY_VALUE : Nat := 0x7124
def HBM.SWEEP_CTRL : Nat := 0x7130
def HBM.SWEEP_RANGE : Nat := 0x7134
def HBM.SWEEP_ADDR_LO : Nat := 0x7138
def HBM.SWEEP_ADDR_HI : Nat := 0x713c
def HBM.SWEEP_STATUS : Nat := 0x7140
def HBM.REPAIR_SEL : Nat := 0x7150
def HBM.REPAIR_CMD : Nat := 0x7154
def HBM.REPAIR_STATUS : Nat := 0x7158
def HBM.TEMP (i : Nat) : Nat := 0x7160 + 0x4 * i
def HBM.SR_STATE : Nat := 0x7168
def HBM.PARITY_REPLAYS : Nat := 0x7180
def HBM.PARITY_FAILS : Nat := 0x7184
def HBM.NEIGHBOUR_REFRESHES : Nat := 0x7188
def HBM.CORR_READS : Nat := 0x718c
def HBM.UNCORR_READS : Nat := 0x7190
def HBM.UNCORR_LAST_LO : Nat := 0x7194
def HBM.UNCORR_LAST_HI : Nat := 0x7198
def HBM.POISONS : Nat := 0x719c
def HBM.WR_DRAINS : Nat := 0x71a0
def HBM.DELAY_WRITES_DROPPED : Nat := 0x71a4
def HBM.SWEEP_ERR (i : Nat) : Nat := 0x7200 + 0x4 * i
def SCR.RETIRE_CFG : Nat := 0x5100
def SCR.RETIRE_CMD : Nat := 0x5104
def SCR.RETIRE_STATUS : Nat := 0x5108
def SCR.COPY_POS : Nat := 0x510c
def SCR.LOST_WRITE : Nat := 0x5110
def SCR.UNCORR : Nat := 0x5114
def SCR.UNCORR_LAST : Nat := 0x5118
def SCR.RETIREMENTS : Nat := 0x511c
def SCR.CONFLICTS (i : Nat) : Nat := 0x5140 + 0x4 * i
def SCR.MAP (i : Nat) : Nat := 0x5200 + 0x4 * i
def SCR.BANK_INFO (i : Nat) : Nat := 0x5300 + 0x4 * i
def VAULT.WIN_ADDR : Nat := 0x6100
def VAULT.WIN_DATA : Nat := 0x6104
def VAULT.KEY_CTRL : Nat := 0x6108
def VAULT.KEY_VALID : Nat := 0x610c
def VAULT.WIPE_CMD : Nat := 0x6110
def VAULT.WIPE_STATUS : Nat := 0x6114
def VAULT.WIPES : Nat := 0x6118
def VAULT.REFUSED : Nat := 0x611c
def HOST.LINK : Nat := 0x3100
def HOST.BAR2_UNMAPPED : Nat := 0x3104
def HOST.BAR2_POISONED : Nat := 0x3108
def HOST.POISONED_TLPS : Nat := 0x310c
def HOST.LINK_DOWNS : Nat := 0x3110
def DMA.BUF_CFG : Nat := 0x4100
def DMA.BUF_USED : Nat := 0x4104
def DMA.SOFT_REQ : Nat := 0x4108
def DMA.CQ_BASE_LO (i : Nat) : Nat := 0x4140 + 0x20 * i
def DMA.CQ_BASE_HI (i : Nat) : Nat := 0x4144 + 0x20 * i
def DMA.CQ_SIZE (i : Nat) : Nat := 0x4148 + 0x20 * i
def DMA.CQ_HEAD (i : Nat) : Nat := 0x414c + 0x20 * i
def DMA.CQ_TAIL (i : Nat) : Nat := 0x4150 + 0x20 * i
def DMA.CQ_POSTED (i : Nat) : Nat := 0x4154 + 0x20 * i
def DMA.READ_KIB : Nat := 0x4240
def DMA.WRITE_KIB : Nat := 0x4244
def DMA.FAULTS : Nat := 0x4248
def DMA.CQ_FULLS : Nat := 0x424c
def RING.BASE_LO (n : Nat) : Nat := 0x100100 + 0x1000 * n
def RING.BASE_HI (n : Nat) : Nat := 0x100104 + 0x1000 * n
def RING.SIZE (n : Nat) : Nat := 0x100108 + 0x1000 * n
def RING.CFG (n : Nat) : Nat := 0x10010c + 0x1000 * n
def RING.PACE (n : Nat) : Nat := 0x100110 + 0x1000 * n
def RING.DOORBELL (n : Nat) : Nat := 0x100114 + 0x1000 * n
def RING.HEAD (n : Nat) : Nat := 0x100118 + 0x1000 * n
def RING.INFLIGHT (n : Nat) : Nat := 0x10011c + 0x1000 * n
def RING.PACE_PEND (n : Nat) : Nat := 0x100120 + 0x1000 * n
def RING.DONE_COUNT (n : Nat) : Nat := 0x100124 + 0x1000 * n
def RING.BYTES_KIB (n : Nat) : Nat := 0x100128 + 0x1000 * n
def RING.ZEROS (n : Nat) : Nat := 0x10012c + 0x1000 * n
def RING.WAITS (n : Nat) : Nat := 0x100130 + 0x1000 * n
def RING.PACE_OVERRUNS (n : Nat) : Nat := 0x100134 + 0x1000 * n
def CHK.CFG (i : Nat) : Nat := 0x1a100 + 0x80 * i
def CHK.POLY_LO (i : Nat) : Nat := 0x1a104 + 0x80 * i
def CHK.POLY_HI (i : Nat) : Nat := 0x1a108 + 0x80 * i
def CHK.INIT_LO (i : Nat) : Nat := 0x1a10c + 0x80 * i
def CHK.INIT_HI (i : Nat) : Nat := 0x1a110 + 0x80 * i
def CHK.XOROUT_LO (i : Nat) : Nat := 0x1a114 + 0x80 * i
def CHK.XOROUT_HI (i : Nat) : Nat := 0x1a118 + 0x80 * i
def CHK.ADDR_LO (i : Nat) : Nat := 0x1a11c + 0x80 * i
def CHK.ADDR_HI (i : Nat) : Nat := 0x1a120 + 0x80 * i
def CHK.LEN (i : Nat) : Nat := 0x1a124 + 0x80 * i
def CHK.EXPECT_LO (i : Nat) : Nat := 0x1a128 + 0x80 * i
def CHK.EXPECT_HI (i : Nat) : Nat := 0x1a12c + 0x80 * i
def CHK.CMD (i : Nat) : Nat := 0x1a130 + 0x80 * i
def CHK.STAT (i : Nat) : Nat := 0x1a134 + 0x80 * i
def CHK.RUN_LO (i : Nat) : Nat := 0x1a138 + 0x80 * i
def CHK.RUN_HI (i : Nat) : Nat := 0x1a13c + 0x80 * i
def CHK.RESULT_LO (i : Nat) : Nat := 0x1a140 + 0x80 * i
def CHK.RESULT_HI (i : Nat) : Nat := 0x1a144 + 0x80 * i
def CHK.SCANNED (i : Nat) : Nat := 0x1a148 + 0x80 * i
def CHK.SUBST : Nat := 0x1a600
def CHK.SCANS : Nat := 0x1a610
def CHK.MISMATCHES : Nat := 0x1a614
def CHK.RUN_WRITES_DROPPED : Nat := 0x1a618
def LEDGER.RING_LO : Nat := 0x1b100
def LEDGER.RING_HI : Nat := 0x1b104
def LEDGER.RING_SIZE : Nat := 0x1b108
def LEDGER.SEG_CFG : Nat := 0x1b10c
def LEDGER.TALLY_CFG : Nat := 0x1b110
def LEDGER.DIGEST_CFG : Nat := 0x1b114
def LEDGER.WRITE_SEQ : Nat := 0x1b118
def LEDGER.EXPORT_SEQ : Nat := 0x1b11c
def LEDGER.RING_USED : Nat := 0x1b120
def LEDGER.Q_BASE_LO (i : Nat) : Nat := 0x1b140 + 0x20 * i
def LEDGER.Q_BASE_HI (i : Nat) : Nat := 0x1b144 + 0x20 * i
def LEDGER.Q_SIZE (i : Nat) : Nat := 0x1b148 + 0x20 * i
def LEDGER.Q_HEAD (i : Nat) : Nat := 0x1b14c + 0x20 * i
def LEDGER.Q_TAIL (i : Nat) : Nat := 0x1b150 + 0x20 * i
def LEDGER.Q_FILTER (i : Nat) : Nat := 0x1b154 + 0x20 * i
def LEDGER.Q_DROPS (i : Nat) : Nat := 0x1b158 + 0x20 * i
def LEDGER.REPLAY_LO : Nat := 0x1b240
def LEDGER.REPLAY_HI : Nat := 0x1b244
def LEDGER.REPLAY_SIZE : Nat := 0x1b248
def LEDGER.REPLAY_FIRST : Nat := 0x1b24c
def LEDGER.REPLAY_START_LO : Nat := 0x1b250
def LEDGER.REPLAY_START_HI : Nat := 0x1b254
def LEDGER.REPLAY_CTRL : Nat := 0x1b258
def LEDGER.REPLAY_FILL : Nat := 0x1b25c
def LEDGER.REPLAY_POS : Nat := 0x1b260
def LEDGER.REPLAY_STATUS : Nat := 0x1b264
def LEDGER.MISMATCH_LINE_LO : Nat := 0x1b268
def LEDGER.MISMATCH_LINE_HI : Nat := 0x1b26c
def LEDGER.RECORDS : Nat := 0x1b280
def LEDGER.TALLIES : Nat := 0x1b284
def LEDGER.RELAYED_IN : Nat := 0x1b288
def LEDGER.RELAYED_OUT : Nat := 0x1b28c
def LEDGER.HELD_LOST : Nat := 0x1b290
def LEDGER.OVERRUN_RECORDS : Nat := 0x1b294
def LEDGER.SEGMENTS : Nat := 0x1b298
def LEDGER.PACK_FAILS : Nat := 0x1b29c
def LEDGER.DIGEST_MISMATCHES : Nat := 0x1b2a0
def LEDGER.LIVE_SUPPRESSED : Nat := 0x1b2a4
def CHIP.DEVICE : Nat := 0x100
def CHIP.REVISION : Nat := 0x104
def CHIP.RESET : Nat := 0x108
def CHIP.RESET_CAUSE : Nat := 0x10c
def CHIP.CLK_STATUS : Nat := 0x110
def CHIP.ID_LOT_LO : Nat := 0x120
def CHIP.ID_LOT_HI : Nat := 0x124
def CHIP.ID_DIE : Nat := 0x128
def CHIP.ID_DATE : Nat := 0x12c
def CHIP.ID_UNIQUE_LO : Nat := 0x130
def CHIP.ID_UNIQUE_HI : Nat := 0x134
def CHIP.ID_CHECK : Nat := 0x138
def PWR.LTR : Nat := 0x1100
def PWR.IDLE_HOLD : Nat := 0x1104
def PWR.NAP_KEEP : Nat := 0x1108
def PWR.STATE : Nat := 0x110c
def PWR.READY_ENTRIES : Nat := 0x1110
def PWR.DOZE_ENTRIES : Nat := 0x1114
def PWR.NAP_ENTRIES : Nat := 0x1118
def PWR.NAP_MS : Nat := 0x111c
def LIFE.STATE : Nat := 0x2100
def LIFE.REQ : Nat := 0x2104
def LIFE.WHY : Nat := 0x2108
def LIFE.CODE (i : Nat) : Nat := 0x2110 + 0x4 * i
def LIFE.TAMPER_CFG : Nat := 0x2120
def LIFE.TAMPER_CLEAR : Nat := 0x2124
def LIFE.TAMPER_STATUS : Nat := 0x2128
def LIFE.TAMPERS : Nat := 0x212c

/-- Access types of R27. -/
inductive Access where
  | rw | ro | wo | w1c | rc
  deriving DecidableEq, Repr

/-- Hand-over events (R35): none, the start of each row 0 line time, each loop sample, each zone sample boundary. -/
inductive HandOver where
  | none | line | loop | zone
  deriving DecidableEq, Repr

/-- One row of a register table: registers at `off + stride * i` for i below `count`. `mask` holds the bits a write sets (R9), `grp` and
`gstep` the commit group `grp + gstep * i` (0: none), `special` the rows whose reset value depends on i. -/
structure RegDef where
  off : Nat
  stride : Nat
  count : Nat
  acc : Access
  mask : Nat
  reset : Nat
  grp : Nat
  gstep : Nat
  ev : HandOver
  special : Nat
  deriving DecidableEq, Repr

/-- Register table of the CHIP page. -/
def tableCHIP : List RegDef := [
  ⟨0x400, 0x4, 60, .rw, 0xfff003f, 0x0, 0, 0, .none, 1⟩,
  ⟨0x500, 0x0, 1, .ro, 0x0, 0x0, 0, 0, .none, 0⟩,
  ⟨0x504, 0x0, 1, .ro, 0x0, 0x0, 0, 0, .none, 0⟩,
  ⟨0x100, 0x0, 1, .rw, 0x3ff, 0x0, 1, 0, .none, 0⟩,
  ⟨0x104, 0x0, 1, .ro, 0x0, 0x27414100, 0, 0, .none, 0⟩,
  ⟨0x108, 0x0, 1, .wo, 0x0, 0x0, 0, 0, .none, 0⟩,
  ⟨0x10c, 0x0, 1, .ro, 0x0, 0x0, 0, 0, .none, 0⟩,
  ⟨0x110, 0x0, 1, .ro, 0x0, 0x0, 0, 0, .none, 0⟩,
  ⟨0x120, 0x0, 1, .ro, 0x0, 0x0, 0, 0, .none, 0⟩,
  ⟨0x124, 0x0, 1, .ro, 0x0, 0x0, 0, 0, .none, 0⟩,
  ⟨0x128, 0x0, 1, .ro, 0x0, 0x0, 0, 0, .none, 0⟩,
  ⟨0x12c, 0x0, 1, .ro, 0x0, 0x0, 0, 0, .none, 0⟩,
  ⟨0x130, 0x0, 1, .ro, 0x0, 0x0, 0, 0, .none, 0⟩,
  ⟨0x134, 0x0, 1, .ro, 0x0, 0x0, 0, 0, .none, 0⟩,
  ⟨0x138, 0x0, 1, .ro, 0x0, 0x0, 0, 0, .none, 0⟩]
/-- Register table of the PWR page. -/
def tablePWR : List RegDef := [
  ⟨0x100, 0x0, 1, .rw, 0x1fffff, 0x0, 0, 0, .none, 0⟩,
  ⟨0x104, 0x0, 1, .rw, 0xfffff, 0x3e8, 0, 0, .none, 0⟩,
  ⟨0x108, 0x0, 1, .rw, 0x1ffffff, 0x1fc0000, 0, 0, .none, 0⟩,
  ⟨0x10c, 0x0, 1, .ro, 0x0, 0x1, 0, 0, .none, 0⟩,
  ⟨0x110, 0x0, 1, .rc, 0x0, 0x0, 0, 0, .none, 0⟩,
  ⟨0x114, 0x0, 1, .rc, 0x0, 0x0, 0, 0, .none, 0⟩,
  ⟨0x118, 0x0, 1, .rc, 0x0, 0x0, 0, 0, .none, 0⟩,
  ⟨0x11c, 0x0, 1, .rc, 0x0, 0x0, 0, 0, .none, 0⟩]
/-- Register table of the LIFE page. -/
def tableLIFE : List RegDef := [
  ⟨0x100, 0x0, 1, .ro, 0x0, 0x0, 0, 0, .none, 0⟩,
  ⟨0x104, 0x0, 1, .wo, 0x0, 0x0, 0, 0, .none, 0⟩,
  ⟨0x108, 0x0, 1, .ro, 0x0, 0x0, 0, 0, .none, 0⟩,
  ⟨0x110, 0x4, 4, .wo, 0x0, 0x0, 0, 0, .none, 0⟩,
  ⟨0x120, 0x0, 1, .rw, 0x80000000, 0x0, 0, 0, .none, 0⟩,
  ⟨0x124, 0x0, 1, .wo, 0x0, 0x0, 0, 0, .none, 0⟩,
  ⟨0x128, 0x0, 1, .ro, 0x0, 0x0, 0, 0, .none, 0⟩,
  ⟨0x12c, 0x0, 1, .rc, 0x0, 0x0, 0, 0, .none, 0⟩]
/-- Register table of the HOST page. -/
def tableHOST : List RegDef := [
  ⟨0x100, 0x0, 1, .ro, 0x0, 0x0, 0, 0, .none, 0⟩,
  ⟨0x104, 0x0, 1, .rc, 0x0, 0x0, 0, 0, .none, 0⟩,
  ⟨0x108, 0x0, 1, .rc, 0x0, 0x0, 0, 0, .none, 0⟩,
  ⟨0x10c, 0x0, 1, .rc, 0x0, 0x0, 0, 0, .none, 0⟩,
  ⟨0x110, 0x0, 1, .rc, 0x0, 0x0, 0, 0, .none, 0⟩]
/-- Register table of the DMA page. -/
def tableDMA : List RegDef := [
  ⟨0x100, 0x0, 1, .rw, 0x3f003f, 0x300030, 0, 0, .none, 0⟩,
  ⟨0x104, 0x0, 1, .ro, 0x0, 0x0, 0, 0, .none, 0⟩,
  ⟨0x108, 0x0, 1, .wo, 0x0, 0x0, 0, 0, .none, 0⟩,
  ⟨0x140, 0x20, 8, .rw, 0xffffffff, 0x0, 1, 1, .none, 0⟩,
  ⟨0x144, 0x20, 8, .rw, 0xffffffff, 0x0, 1, 1, .none, 0⟩,
  ⟨0x148, 0x20, 8, .rw, 0x1ffff, 0x0, 1, 1, .none, 0⟩,
  ⟨0x14c, 0x20, 8, .rw, 0xffff, 0x0, 0, 0, .none, 0⟩,
  ⟨0x150, 0x20, 8, .ro, 0x0, 0x0, 0, 0, .none, 0⟩,
  ⟨0x154, 0x20, 8, .rc, 0x0, 0x0, 0, 0, .none, 0⟩,
  ⟨0x240, 0x0, 1, .rc, 0x0, 0x0, 0, 0, .none, 0⟩,
  ⟨0x244, 0x0, 1, .rc, 0x0, 0x0, 0, 0, .none, 0⟩,
  ⟨0x248, 0x0, 1, .rc, 0x0, 0x0, 0, 0, .none, 0⟩,
  ⟨0x24c, 0x0, 1, .rc, 0x0, 0x0, 0, 0, .none, 0⟩]
/-- Register table of the SCR page. -/
def tableSCR : List RegDef := [
  ⟨0x100, 0x0, 1, .rw, 0x8000ffff, 0x80000040, 0, 0, .none, 0⟩,
  ⟨0x104, 0x0, 1, .wo, 0x0, 0x0, 0, 0, .none, 0⟩,
  ⟨0x108, 0x0, 1, .ro, 0x0, 0x400, 0, 0, .none, 0⟩,
  ⟨0x10c, 0x0, 1, .ro, 0x0, 0x0, 0, 0, .none, 0⟩,
  ⟨0x110, 0x0, 1, .rc, 0x0, 0x0, 0, 0, .none, 0⟩,
  ⟨0x114, 0x0, 1, .rc, 0x0, 0x0, 0, 0, .none, 0⟩,
  ⟨0x118, 0x0, 1, .ro, 0x0, 0x0, 0, 0, .none, 0⟩,
  ⟨0x11c, 0x0, 1, .rc, 0x0, 0x0, 0, 0, .none, 0⟩,
  ⟨0x140, 0x4, 8, .rc, 0x0, 0x0, 0, 0, .none, 0⟩,
  ⟨0x200, 0x4, 64, .ro, 0x0, 0x0, 0, 0, .none, 0⟩,
  ⟨0x300, 0x4, 68, .ro, 0x0, 0x0, 0, 0, .none, 0⟩]
/-- Register table of the VAULT page. -/
def tableVAULT : List RegDef := [
  ⟨0x100, 0x0, 1, .rw, 0x8003fffc, 0x0, 0, 0, .none, 0⟩,
  ⟨0x104, 0x0, 1, .rw, 0xffffffff, 0x0, 0, 0, .none, 0⟩,
  ⟨0x108, 0x0, 1, .wo, 0x0, 0x0, 0, 0, .none, 0⟩,
  ⟨0x10c, 0x0, 1, .ro, 0x0, 0x0, 0, 0, .none, 0⟩,
  ⟨0x110, 0x0, 1, .wo, 0x0, 0x0, 0, 0, .none, 0⟩,
  ⟨0x114, 0x0, 1, .ro, 0x0, 0x0, 0, 0, .none, 0⟩,
  ⟨0x118, 0x0, 1, .rc, 0x0, 0x0, 0, 0, .none, 0⟩,
  ⟨0x11c, 0x0, 1, .rc, 0x0, 0x0, 0, 0, .none, 0⟩]
/-- Register table of the HBM page. -/
def tableHBM : List RegDef := [
  ⟨0x100, 0x0, 1, .rw, 0x1, 0x0, 1, 0, .none, 0⟩,
  ⟨0x104, 0x0, 1, .rw, 0x3f3f03ff, 0x30100014, 0, 0, .none, 0⟩,
  ⟨0x108, 0x0, 1, .rw, 0xffff0007, 0x10000002, 2, 0, .none, 0⟩,
  ⟨0x10c, 0x0, 1, .rw, 0xff0fff, 0x690355, 0, 0, .none, 0⟩,
  ⟨0x110, 0x0, 1, .rw, 0xffffffff, 0x0, 3, 0, .none, 0⟩,
  ⟨0x114, 0x0, 1, .rw, 0xf, 0x0, 3, 0, .none, 0⟩,
  ⟨0x118, 0x0, 1, .rw, 0x7fff, 0x0, 3, 0, .none, 0⟩,
  ⟨0x11c, 0x0, 1, .ro, 0x0, 0x0, 0, 0, .none, 0⟩,
  ⟨0x120, 0x0, 1, .rw, 0x1031f07, 0x0, 0, 0, .none, 0⟩,
  ⟨0x124, 0x0, 1, .rw, 0x7f, 0x0, 0, 0, .none, 0⟩,
  ⟨0x130, 0x0, 1, .rw, 0x31f07, 0x0, 0, 0, .none, 0⟩,
  ⟨0x134, 0x0, 1, .rw, 0x7f0f007f, 0x40010000, 0, 0, .none, 0⟩,
  ⟨0x138, 0x0, 1, .rw, 0xffffffff, 0x0, 0, 0, .none, 0⟩,
  ⟨0x13c, 0x0, 1, .rw, 0xf, 0x0, 0, 0, .none, 0⟩,
  ⟨0x140, 0x0, 1, .ro, 0x0, 0x0, 0, 0, .none, 0⟩,
  ⟨0x150, 0x0, 1, .rw, 0xdf3f3fff, 0x0, 4, 0, .none, 0⟩,
  ⟨0x154, 0x0, 1, .wo, 0x0, 0x0, 0, 0, .none, 0⟩,
  ⟨0x158, 0x0, 1, .ro, 0x0, 0x0, 0, 0, .none, 0⟩,
  ⟨0x160, 0x4, 2, .ro, 0x0, 0x0, 0, 0, .none, 0⟩,
  ⟨0x168, 0x0, 1, .ro, 0x0, 0x0, 0, 0, .none, 0⟩,
  ⟨0x180, 0x0, 1, .rc, 0x0, 0x0, 0, 0, .none, 0⟩,
  ⟨0x184, 0x0, 1, .rc, 0x0, 0x0, 0, 0, .none, 0⟩,
  ⟨0x188, 0x0, 1, .rc, 0x0, 0x0, 0, 0, .none, 0⟩,
  ⟨0x18c, 0x0, 1, .rc, 0x0, 0x0, 0, 0, .none, 0⟩,
  ⟨0x190, 0x0, 1, .rc, 0x0, 0x0, 0, 0, .none, 0⟩,
  ⟨0x194, 0x0, 1, .ro, 0x0, 0x0, 0, 0, .none, 0⟩,
  ⟨0x198, 0x0, 1, .ro, 0x0, 0x0, 0, 0, .none, 0⟩,
  ⟨0x19c, 0x0, 1, .rc, 0x0, 0x0, 0, 0, .none, 0⟩,
  ⟨0x1a0, 0x0, 1, .rc, 0x0, 0x0, 0, 0, .none, 0⟩,
  ⟨0x1a4, 0x0, 1, .rc, 0x0, 0x0, 0, 0, .none, 0⟩,
  ⟨0x200, 0x4, 64, .ro, 0x0, 0x0, 0, 0, .none, 0⟩]
/-- Register table of the MAIL page. -/
def tableMAIL : List RegDef := [
  ⟨0x100, 0x0, 1, .rw, 0xffffffff, 0x0, 0, 0, .none, 0⟩,
  ⟨0x104, 0x0, 1, .rw, 0x7ff, 0x100, 0, 0, .none, 0⟩,
  ⟨0x108, 0x0, 1, .rw, 0x1fffff, 0x4e2, 1, 0, .none, 0⟩,
  ⟨0x10c, 0x0, 1, .rw, 0x1fffff, 0xc3500, 1, 0, .none, 0⟩,
  ⟨0x110, 0x0, 1, .rw, 0x1fffff, 0x7d00, 1, 0, .none, 0⟩,
  ⟨0x114, 0x0, 1, .wo, 0x0, 0x0, 0, 0, .none, 0⟩,
  ⟨0x118, 0x0, 1, .wo, 0x0, 0x0, 0, 0, .none, 0⟩,
  ⟨0x140, 0x20, 4, .ro, 0x0, 0x0, 0, 0, .none, 0⟩,
  ⟨0x144, 0x20, 4, .ro, 0x0, 0x0, 0, 0, .none, 0⟩,
  ⟨0x148, 0x20, 4, .ro, 0x0, 0x0, 0, 0, .none, 0⟩,
  ⟨0x14c, 0x20, 4, .ro, 0x0, 0x0, 0, 0, .none, 0⟩,
  ⟨0x150, 0x20, 4, .ro, 0x0, 0x0, 0, 0, .none, 0⟩,
  ⟨0x154, 0x20, 4, .ro, 0x0, 0x0, 0, 0, .none, 0⟩,
  ⟨0x158, 0x20, 4, .ro, 0x0, 0xffffffff, 0, 0, .none, 0⟩,
  ⟨0x15c, 0x20, 4, .ro, 0x0, 0xffff, 0, 0, .none, 0⟩,
  ⟨0x1c0, 0x0, 1, .rc, 0x0, 0x0, 0, 0, .none, 0⟩,
  ⟨0x1c4, 0x0, 1, .rc, 0x0, 0x0, 0, 0, .none, 0⟩,
  ⟨0x1c8, 0x0, 1, .rc, 0x0, 0x0, 0, 0, .none, 0⟩,
  ⟨0x1cc, 0x0, 1, .rc, 0x0, 0x0, 0, 0, .none, 0⟩,
  ⟨0x1d0, 0x0, 1, .rc, 0x0, 0x0, 0, 0, .none, 0⟩,
  ⟨0x1d4, 0x0, 1, .rc, 0x0, 0x0, 0, 0, .none, 0⟩]
/-- Register table of the DEC page. -/
def tableDEC : List RegDef := [
  ⟨0x100, 0x0, 1, .rw, 0xff, 0xff, 0, 0, .none, 0⟩,
  ⟨0x110, 0x10, 8, .ro, 0x0, 0x0, 0, 0, .none, 0⟩,
  ⟨0x114, 0x10, 8, .ro, 0x0, 0x0, 0, 0, .none, 0⟩,
  ⟨0x118, 0x10, 8, .rc, 0x0, 0x0, 0, 0, .none, 0⟩,
  ⟨0x11c, 0x10, 8, .rc, 0x0, 0x0, 0, 0, .none, 0⟩,
  ⟨0x190, 0x0, 1, .ro, 0x0, 0x0, 0, 0, .none, 0⟩,
  ⟨0x194, 0x0, 1, .ro, 0x0, 0x0, 0, 0, .none, 0⟩,
  ⟨0x198, 0x0, 1, .ro, 0x0, 0x0, 0, 0, .none, 0⟩,
  ⟨0x19c, 0x0, 1, .ro, 0x0, 0x0, 0, 0, .none, 0⟩,
  ⟨0x1a0, 0x0, 1, .rc, 0x0, 0x0, 0, 0, .none, 0⟩,
  ⟨0x1a4, 0x0, 1, .rc, 0x0, 0x0, 0, 0, .none, 0⟩,
  ⟨0x1a8, 0x0, 1, .rc, 0x0, 0x0, 0, 0, .none, 0⟩,
  ⟨0x1ac, 0x0, 1, .rc, 0x0, 0x0, 0, 0, .none, 0⟩]
/-- Register table of the CMP page. -/
def tableCMP : List RegDef := [
  ⟨0x100, 0x40, 2, .rw, 0xffffffff, 0x0, 1, 1, .none, 0⟩,
  ⟨0x104, 0x40, 2, .rw, 0xf, 0x0, 1, 1, .none, 0⟩,
  ⟨0x108, 0x40, 2, .rw, 0xffffffff, 0x0, 1, 1, .none, 0⟩,
  ⟨0x10c, 0x40, 2, .rw, 0xffffffff, 0x0, 1, 1, .none, 0⟩,
  ⟨0x110, 0x40, 2, .rw, 0xf, 0x0, 1, 1, .none, 0⟩,
  ⟨0x114, 0x40, 2, .rw, 0xffffffff, 0x0, 1, 1, .none, 0⟩,
  ⟨0x118, 0x40, 2, .rw, 0xf0ffffff, 0x80000000, 1, 1, .none, 0⟩,
  ⟨0x11c, 0x40, 2, .wo, 0x0, 0x0, 0, 0, .none, 0⟩,
  ⟨0x120, 0x40, 2, .ro, 0x0, 0x0, 0, 0, .none, 0⟩,
  ⟨0x124, 0x40, 2, .ro, 0x0, 0x0, 0, 0, .none, 0⟩,
  ⟨0x128, 0x40, 2, .ro, 0x0, 0x0, 0, 0, .none, 0⟩,
  ⟨0x12c, 0x40, 2, .rw, 0x8000001f, 0x0, 0, 0, .none, 0⟩,
  ⟨0x130, 0x40, 2, .rc, 0x0, 0x0, 0, 0, .none, 0⟩,
  ⟨0x134, 0x40, 2, .rc, 0x0, 0x0, 0, 0, .none, 0⟩,
  ⟨0x138, 0x40, 2, .rc, 0x0, 0x0, 0, 0, .none, 0⟩,
  ⟨0x13c, 0x40, 2, .rc, 0x0, 0x0, 0, 0, .none, 0⟩]
/-- Register table of the ALBUM page. -/
def tableALBUM : List RegDef := [
  ⟨0x100, 0x0, 1, .rw, 0xffffffff, 0x0, 1, 0, .none, 0⟩,
  ⟨0x104, 0x0, 1, .rw, 0xf, 0x0, 1, 0, .none, 0⟩,
  ⟨0x108, 0x0, 1, .rw, 0xffffffff, 0x0, 1, 0, .none, 0⟩,
  ⟨0x10c, 0x0, 1, .ro, 0x0, 0x0, 0, 0, .none, 0⟩,
  ⟨0x110, 0x0, 1, .rw, 0x800fffff, 0x0, 0, 0, .none, 0⟩,
  ⟨0x114, 0x0, 1, .ro, 0x0, 0x0, 0, 0, .none, 0⟩,
  ⟨0x118, 0x0, 1, .rw, 0x30fff, 0x0, 0, 0, .none, 0⟩,
  ⟨0x11c, 0x0, 1, .ro, 0x0, 0x0, 0, 0, .none, 0⟩,
  ⟨0x120, 0x0, 1, .ro, 0x0, 0x0, 0, 0, .none, 0⟩,
  ⟨0x124, 0x0, 1, .ro, 0x0, 0x0, 0, 0, .none, 0⟩,
  ⟨0x128, 0x0, 1, .ro, 0x0, 0x0, 0, 0, .none, 0⟩,
  ⟨0x140, 0x4, 4, .ro, 0x0, 0x0, 0, 0, .none, 0⟩,
  ⟨0x150, 0x4, 4, .ro, 0x0, 0x0, 0, 0, .none, 0⟩,
  ⟨0x160, 0x0, 1, .rc, 0x0, 0x0, 0, 0, .none, 0⟩,
  ⟨0x164, 0x0, 1, .rc, 0x0, 0x0, 0, 0, .none, 0⟩,
  ⟨0x168, 0x0, 1, .rc, 0x0, 0x0, 0, 0, .none, 0⟩,
  ⟨0x16c, 0x0, 1, .rc, 0x0, 0x0, 0, 0, .none, 0⟩]
/-- Register table of the TILE page. -/
def tableTILE : List RegDef := [
  ⟨0x100, 0x4, 32, .rw, 0x3f, 0x0, 1, 0, .line, 1⟩,
  ⟨0x180, 0x0, 1, .rw, 0xffffffff, 0x0, 2, 0, .none, 0⟩,
  ⟨0x184, 0x0, 1, .rw, 0xf, 0x0, 2, 0, .none, 0⟩,
  ⟨0x188, 0x0, 1, .rw, 0xffffffff, 0x0, 2, 0, .none, 0⟩,
  ⟨0x18c, 0x0, 1, .rw, 0xffffffff, 0x0, 2, 0, .none, 0⟩,
  ⟨0x190, 0x0, 1, .rw, 0xf, 0x0, 2, 0, .none, 0⟩,
  ⟨0x194, 0x0, 1, .rw, 0xffffffff, 0x0, 2, 0, .none, 0⟩,
  ⟨0x1a0, 0x0, 1, .ro, 0x0, 0x0, 0, 0, .none, 0⟩,
  ⟨0x1a4, 0x0, 1, .ro, 0x0, 0x0, 0, 0, .none, 0⟩,
  ⟨0x1a8, 0x0, 1, .ro, 0x0, 0x0, 0, 0, .none, 0⟩,
  ⟨0x1ac, 0x0, 1, .ro, 0x0, 0x0, 0, 0, .none, 0⟩,
  ⟨0x1b0, 0x0, 1, .rc, 0x0, 0x0, 0, 0, .none, 0⟩,
  ⟨0x1c0, 0x8, 4, .ro, 0x0, 0xffffffff, 0, 0, .none, 0⟩,
  ⟨0x1c4, 0x8, 4, .ro, 0x0, 0xffff, 0, 0, .none, 0⟩,
  ⟨0x200, 0x4, 34, .ro, 0x0, 0x0, 0, 0, .none, 0⟩,
  ⟨0x290, 0x0, 1, .rc, 0x0, 0x0, 0, 0, .none, 0⟩,
  ⟨0x294, 0x0, 1, .rc, 0x0, 0x0, 0, 0, .none, 0⟩,
  ⟨0x298, 0x0, 1, .rc, 0x0, 0x0, 0, 0, .none, 0⟩,
  ⟨0x29c, 0x0, 1, .rc, 0x0, 0x0, 0, 0, .none, 0⟩,
  ⟨0x2a0, 0x0, 1, .rc, 0x0, 0x0, 0, 0, .none, 0⟩,
  ⟨0x2a4, 0x0, 1, .rc, 0x0, 0x0, 0, 0, .none, 0⟩]
/-- Register table of the FRANK page. -/
def tableFRANK : List RegDef := [
  ⟨0x100, 0x0, 1, .rw, 0x1fff000, 0x0, 1, 0, .none, 0⟩,
  ⟨0x104, 0x0, 1, .rw, 0x1fff, 0x0, 1, 0, .none, 0⟩,
  ⟨0x108, 0x0, 1, .ro, 0x0, 0x0, 0, 0, .none, 0⟩,
  ⟨0x10c, 0x0, 1, .rw, 0xffff, 0x100, 0, 0, .none, 0⟩,
  ⟨0x110, 0x0, 1, .rw, 0x300ff, 0x0, 2, 0, .line, 0⟩,
  ⟨0x114, 0x0, 1, .rw, 0xffffffff, 0x0, 2, 0, .line, 0⟩,
  ⟨0x118, 0x0, 1, .rw, 0xffffffff, 0x0, 2, 0, .line, 0⟩,
  ⟨0x120, 0x0, 1, .rw, 0x300ff, 0x0, 0, 0, .none, 0⟩,
  ⟨0x124, 0x0, 1, .ro, 0x0, 0x0, 0, 0, .none, 0⟩,
  ⟨0x128, 0x0, 1, .ro, 0x0, 0x0, 0, 0, .none, 0⟩,
  ⟨0x12c, 0x0, 1, .ro, 0x0, 0x0, 0, 0, .none, 0⟩,
  ⟨0x140, 0x4, 4, .ro, 0x0, 0x0, 0, 0, .none, 0⟩,
  ⟨0x150, 0x4, 4, .ro, 0x0, 0x0, 0, 0, .none, 0⟩,
  ⟨0x160, 0x0, 1, .rc, 0x0, 0x0, 0, 0, .none, 0⟩,
  ⟨0x164, 0x0, 1, .rc, 0x0, 0x0, 0, 0, .none, 0⟩,
  ⟨0x168, 0x0, 1, .rc, 0x0, 0x0, 0, 0, .none, 0⟩,
  ⟨0x16c, 0x0, 1, .rc, 0x0, 0x0, 0, 0, .none, 0⟩,
  ⟨0x170, 0x0, 1, .rc, 0x0, 0x0, 0, 0, .none, 0⟩,
  ⟨0x174, 0x0, 1, .rc, 0x0, 0x0, 0, 0, .none, 0⟩,
  ⟨0x178, 0x0, 1, .rc, 0x0, 0x0, 0, 0, .none, 0⟩]
/-- Register table of the SPLIT page. -/
def tableSPLIT : List RegDef := [
  ⟨0x100, 0x0, 1, .rw, 0x1f077f, 0x100520, 1, 0, .none, 0⟩,
  ⟨0x104, 0x0, 1, .rw, 0x1ff0000, 0x0, 1, 0, .none, 0⟩,
  ⟨0x108, 0x0, 1, .rw, 0x1fff000, 0x1000000, 1, 0, .none, 0⟩,
  ⟨0x10c, 0x0, 1, .rw, 0x800000ff, 0x8, 0, 0, .none, 0⟩,
  ⟨0x110, 0x0, 1, .rw, 0x7ffff, 0x0, 2, 0, .line, 0⟩,
  ⟨0x114, 0x0, 1, .rw, 0x1ffff, 0x0, 2, 0, .line, 0⟩,
  ⟨0x118, 0x0, 1, .rw, 0x3ffff, 0x0, 2, 0, .line, 0⟩,
  ⟨0x11c, 0x0, 1, .rw, 0x7, 0x0, 2, 0, .line, 0⟩,
  ⟨0x120, 0x0, 1, .ro, 0x0, 0x0, 0, 0, .none, 0⟩,
  ⟨0x124, 0x0, 1, .rw, 0xffff, 0x0, 0, 0, .none, 0⟩,
  ⟨0x128, 0x0, 1, .ro, 0x0, 0x0, 0, 0, .none, 0⟩,
  ⟨0x12c, 0x0, 1, .rw, 0x300ff, 0x0, 0, 0, .none, 0⟩,
  ⟨0x130, 0x0, 1, .ro, 0x0, 0x0, 0, 0, .none, 0⟩,
  ⟨0x140, 0x8, 4, .ro, 0x0, 0x0, 0, 0, .none, 0⟩,
  ⟨0x144, 0x8, 4, .ro, 0x0, 0x0, 0, 0, .none, 0⟩,
  ⟨0x160, 0x0, 1, .ro, 0x0, 0x0, 0, 0, .none, 0⟩,
  ⟨0x164, 0x0, 1, .rc, 0x0, 0x0, 0, 0, .none, 0⟩,
  ⟨0x168, 0x0, 1, .rc, 0x0, 0x0, 0, 0, .none, 0⟩,
  ⟨0x16c, 0x0, 1, .ro, 0x0, 0x0, 0, 0, .none, 0⟩,
  ⟨0x170, 0x0, 1, .rc, 0x0, 0x0, 0, 0, .none, 0⟩,
  ⟨0x174, 0x0, 1, .rc, 0x0, 0x0, 0, 0, .none, 0⟩,
  ⟨0x178, 0x0, 1, .rc, 0x0, 0x0, 0, 0, .none, 0⟩,
  ⟨0x17c, 0x0, 1, .rc, 0x0, 0x0, 0, 0, .none, 0⟩,
  ⟨0x180, 0x0, 1, .rc, 0x0, 0x0, 0, 0, .none, 0⟩,
  ⟨0x184, 0x0, 1, .rc, 0x0, 0x0, 0, 0, .none, 0⟩,
  ⟨0x188, 0x0, 1, .rc, 0x0, 0x0, 0, 0, .none, 0⟩]
/-- Register table of the PLACE page. -/
def tablePLACE : List RegDef := [
  ⟨0x100, 0x0, 1, .rw, 0xffffff, 0x0, 0, 0, .line, 0⟩,
  ⟨0x110, 0x4, 5, .rw, 0x7f, 0x0, 1, 0, .none, 0⟩,
  ⟨0x130, 0x4, 5, .rw, 0xff, 0x0, 0, 0, .line, 0⟩,
  ⟨0x150, 0x0, 1, .rw, 0x8f0fffff, 0x10000, 2, 0, .line, 0⟩,
  ⟨0x154, 0x0, 1, .rw, 0xffffffff, 0x0, 2, 0, .line, 0⟩,
  ⟨0x158, 0x0, 1, .rw, 0xfff7fff, 0x401000, 2, 0, .line, 0⟩,
  ⟨0x160, 0x0, 1, .ro, 0x0, 0x0, 0, 0, .none, 0⟩,
  ⟨0x164, 0x0, 1, .ro, 0x0, 0x0, 0, 0, .none, 0⟩,
  ⟨0x168, 0x0, 1, .ro, 0x0, 0x0, 0, 0, .none, 0⟩,
  ⟨0x180, 0x4, 2, .rw, 0x3f03ff, 0x100000, 3, 0, .none, 0⟩,
  ⟨0x190, 0x4, 4, .rw, 0x80003f3f, 0x0, 3, 0, .none, 0⟩,
  ⟨0x1a0, 0x4, 4, .rw, 0x80003f3f, 0x0, 3, 0, .none, 0⟩,
  ⟨0x200, 0x4, 256, .rw, 0x1ff01ff, 0x0, 4, 0, .none, 2⟩,
  ⟨0x600, 0x0, 1, .rc, 0x0, 0x0, 0, 0, .none, 0⟩,
  ⟨0x604, 0x0, 1, .rc, 0x0, 0x0, 0, 0, .none, 0⟩,
  ⟨0x608, 0x0, 1, .rc, 0x0, 0x0, 0, 0, .none, 0⟩,
  ⟨0x60c, 0x0, 1, .rc, 0x0, 0x0, 0, 0, .none, 0⟩,
  ⟨0x610, 0x0, 1, .rc, 0x0, 0x0, 0, 0, .none, 0⟩,
  ⟨0x614, 0x0, 1, .rc, 0x0, 0x0, 0, 0, .none, 0⟩,
  ⟨0x618, 0x0, 1, .rc, 0x0, 0x0, 0, 0, .none, 0⟩]
/-- Register table of the SEAL page. -/
def tableSEAL : List RegDef := [
  ⟨0x100, 0x0, 1, .rw, 0x7ff, 0x40, 1, 0, .none, 0⟩,
  ⟨0x104, 0x0, 1, .rw, 0x8000001f, 0x0, 0, 0, .none, 0⟩,
  ⟨0x108, 0x0, 1, .rw, 0xfff8fff, 0x310064, 0, 0, .none, 0⟩,
  ⟨0x10c, 0x0, 1, .rw, 0x3, 0x0, 0, 0, .none, 0⟩,
  ⟨0x110, 0x0, 1, .rw, 0xffffffff, 0x0, 0, 0, .none, 0⟩,
  ⟨0x114, 0x0, 1, .ro, 0x0, 0x0, 0, 0, .none, 0⟩,
  ⟨0x118, 0x0, 1, .ro, 0x0, 0x0, 0, 0, .none, 0⟩,
  ⟨0x140, 0x8, 4, .ro, 0x0, 0x0, 0, 0, .none, 0⟩,
  ⟨0x144, 0x8, 4, .ro, 0x0, 0x0, 0, 0, .none, 0⟩,
  ⟨0x160, 0x0, 1, .rc, 0x0, 0x0, 0, 0, .none, 0⟩,
  ⟨0x164, 0x0, 1, .rc, 0x0, 0x0, 0, 0, .none, 0⟩,
  ⟨0x168, 0x0, 1, .rc, 0x0, 0x0, 0, 0, .none, 0⟩,
  ⟨0x16c, 0x0, 1, .rc, 0x0, 0x0, 0, 0, .none, 0⟩,
  ⟨0x170, 0x0, 1, .rc, 0x0, 0x0, 0, 0, .none, 0⟩,
  ⟨0x174, 0x0, 1, .rc, 0x0, 0x0, 0, 0, .none, 0⟩,
  ⟨0x178, 0x0, 1, .rc, 0x0, 0x0, 0, 0, .none, 0⟩,
  ⟨0x17c, 0x0, 1, .rc, 0x0, 0x0, 0, 0, .none, 0⟩,
  ⟨0x180, 0x0, 1, .rc, 0x0, 0x0, 0, 0, .none, 0⟩,
  ⟨0x184, 0x0, 1, .rc, 0x0, 0x0, 0, 0, .none, 0⟩,
  ⟨0x188, 0x0, 1, .rc, 0x0, 0x0, 0, 0, .none, 0⟩,
  ⟨0x18c, 0x0, 1, .rc, 0x0, 0x0, 0, 0, .none, 0⟩,
  ⟨0x190, 0x0, 1, .rc, 0x0, 0x0, 0, 0, .none, 0⟩,
  ⟨0x194, 0x0, 1, .rc, 0x0, 0x0, 0, 0, .none, 0⟩,
  ⟨0x198, 0x0, 1, .rc, 0x0, 0x0, 0, 0, .none, 0⟩,
  ⟨0x19c, 0x0, 1, .ro, 0x0, 0x0, 0, 0, .none, 0⟩]
/-- Register table of the WEB page. -/
def tableWEB : List RegDef := [
  ⟨0x100, 0x0, 1, .rw, 0x3, 0x0, 1, 0, .none, 0⟩,
  ⟨0x104, 0x0, 1, .rw, 0xffffffff, 0x10001, 1, 0, .none, 0⟩,
  ⟨0x108, 0x0, 1, .rw, 0x3ff, 0x0, 1, 0, .none, 0⟩,
  ⟨0x10c, 0x0, 1, .rw, 0xffffffff, 0x0, 1, 0, .none, 0⟩,
  ⟨0x110, 0x0, 1, .rw, 0x1f0f03ff, 0x120300fa, 2, 0, .loop, 0⟩,
  ⟨0x114, 0x0, 1, .rw, 0x3f, 0x15, 2, 0, .loop, 0⟩,
  ⟨0x118, 0x0, 1, .rw, 0xffff, 0x4000, 2, 0, .loop, 0⟩,
  ⟨0x11c, 0x0, 1, .rw, 0xffffffff, 0x0, 0, 0, .loop, 0⟩,
  ⟨0x120, 0x0, 1, .rw, 0xffff, 0x0, 0, 0, .line, 0⟩,
  ⟨0x124, 0x0, 1, .rw, 0x7ffff, 0x6ddd0, 0, 0, .none, 0⟩,
  ⟨0x128, 0x0, 1, .rw, 0xffff, 0x40, 0, 0, .none, 0⟩,
  ⟨0x12c, 0x0, 1, .rw, 0xffff, 0x3e8, 0, 0, .none, 0⟩,
  ⟨0x130, 0x0, 1, .rw, 0x1ff0fff, 0x8ae, 0, 0, .none, 0⟩,
  ⟨0x134, 0x0, 1, .rw, 0x800000ff, 0x19, 0, 0, .none, 0⟩,
  ⟨0x138, 0x0, 1, .rw, 0x3ffffff, 0xc80a, 0, 0, .none, 0⟩,
  ⟨0x13c, 0x0, 1, .rw, 0xffff, 0x1000, 0, 0, .none, 0⟩,
  ⟨0x140, 0x0, 1, .ro, 0x0, 0x0, 0, 0, .none, 0⟩,
  ⟨0x144, 0x0, 1, .ro, 0x0, 0x0, 0, 0, .none, 0⟩,
  ⟨0x148, 0x0, 1, .ro, 0x0, 0x0, 0, 0, .none, 0⟩,
  ⟨0x14c, 0x0, 1, .ro, 0x0, 0x0, 0, 0, .none, 0⟩,
  ⟨0x150, 0x0, 1, .ro, 0x0, 0x0, 0, 0, .none, 0⟩,
  ⟨0x154, 0x0, 1, .ro, 0x0, 0x0, 0, 0, .none, 0⟩,
  ⟨0x158, 0x0, 1, .rc, 0x0, 0x0, 0, 0, .none, 0⟩,
  ⟨0x15c, 0x0, 1, .ro, 0x0, 0x0, 0, 0, .none, 0⟩,
  ⟨0x160, 0x0, 1, .ro, 0x0, 0x0, 0, 0, .none, 0⟩,
  ⟨0x170, 0x0, 1, .rc, 0x0, 0x0, 0, 0, .none, 0⟩,
  ⟨0x174, 0x0, 1, .rc, 0x0, 0x0, 0, 0, .none, 0⟩,
  ⟨0x178, 0x0, 1, .rc, 0x0, 0x0, 0, 0, .none, 0⟩,
  ⟨0x17c, 0x0, 1, .rc, 0x0, 0x0, 0, 0, .none, 0⟩,
  ⟨0x180, 0x0, 1, .rc, 0x0, 0x0, 0, 0, .none, 0⟩,
  ⟨0x184, 0x0, 1, .rc, 0x0, 0x0, 0, 0, .none, 0⟩]
/-- Register table of the JLINK page. -/
def tableJLINK : List RegDef := [
  ⟨0x100, 0x4, 16, .rw, 0x1f, 0x0, 1, 0, .line, 3⟩,
  ⟨0x140, 0x0, 1, .rw, 0x3ff00ff, 0x1680083, 0, 0, .none, 0⟩,
  ⟨0x150, 0x4, 2, .ro, 0x0, 0x0, 0, 0, .none, 0⟩,
  ⟨0x160, 0x10, 18, .ro, 0x0, 0x0, 0, 0, .none, 0⟩,
  ⟨0x164, 0x10, 18, .rc, 0x0, 0x0, 0, 0, .none, 0⟩,
  ⟨0x168, 0x10, 18, .rc, 0x0, 0x0, 0, 0, .none, 0⟩,
  ⟨0x16c, 0x10, 18, .rc, 0x0, 0x0, 0, 0, .none, 0⟩,
  ⟨0x280, 0x0, 1, .rc, 0x0, 0x0, 0, 0, .none, 0⟩,
  ⟨0x284, 0x0, 1, .rc, 0x0, 0x0, 0, 0, .none, 0⟩,
  ⟨0x288, 0x0, 1, .rc, 0x0, 0x0, 0, 0, .none, 0⟩,
  ⟨0x28c, 0x0, 1, .rc, 0x0, 0x0, 0, 0, .none, 0⟩,
  ⟨0x290, 0x0, 1, .rc, 0x0, 0x0, 0, 0, .none, 0⟩,
  ⟨0x294, 0x0, 1, .rc, 0x0, 0x0, 0, 0, .none, 0⟩,
  ⟨0x298, 0x0, 1, .ro, 0x0, 0x6ddd0, 0, 0, .none, 0⟩,
  ⟨0x29c, 0x0, 1, .ro, 0x0, 0x6ddd0, 0, 0, .none, 0⟩]
/-- Register table of the LANE page. -/
def tableLANE : List RegDef := [
  ⟨0x100, 0x0, 1, .rw, 0x103, 0x0, 1, 0, .none, 0⟩,
  ⟨0x104, 0x0, 1, .rw, 0xffff03ff, 0x401001f4, 0, 0, .none, 0⟩,
  ⟨0x108, 0x0, 1, .rw, 0x103ff, 0x40, 0, 0, .none, 0⟩,
  ⟨0x10c, 0x0, 1, .wo, 0x0, 0x0, 0, 0, .none, 0⟩,
  ⟨0x110, 0x4, 4, .ro, 0x0, 0x0, 0, 0, .none, 0⟩,
  ⟨0x120, 0x0, 1, .rw, 0x1f0300, 0x0, 0, 0, .none, 0⟩,
  ⟨0x124, 0x0, 1, .rw, 0x3f3f007f, 0x18000040, 0, 0, .none, 0⟩,
  ⟨0x128, 0x0, 1, .ro, 0x0, 0x0, 0, 0, .none, 0⟩,
  ⟨0x12c, 0x0, 1, .ro, 0x0, 0x0, 0, 0, .none, 0⟩,
  ⟨0x130, 0x0, 1, .ro, 0x0, 0x0, 0, 0, .none, 0⟩,
  ⟨0x134, 0x0, 1, .ro, 0x0, 0x0, 0, 0, .none, 0⟩,
  ⟨0x138, 0x0, 1, .rw, 0x1f000f, 0x1, 0, 0, .none, 0⟩,
  ⟨0x13c, 0x0, 1, .ro, 0x0, 0x0, 0, 0, .none, 0⟩,
  ⟨0x200, 0x40, 25, .rw, 0x3131, 0x21, 0, 0, .none, 4⟩,
  ⟨0x204, 0x40, 25, .wo, 0x0, 0x0, 0, 0, .none, 0⟩,
  ⟨0x208, 0x40, 25, .ro, 0x0, 0x0, 0, 0, .none, 0⟩,
  ⟨0x20c, 0x40, 25, .rw, 0x1f7f1f0f, 0x400000, 0, 0, .none, 0⟩,
  ⟨0x210, 0x40, 25, .ro, 0x0, 0x400000, 0, 0, .none, 0⟩,
  ⟨0x214, 0x40, 25, .ro, 0x0, 0x0, 0, 0, .none, 0⟩,
  ⟨0x218, 0x40, 25, .ro, 0x0, 0x0, 0, 0, .none, 0⟩,
  ⟨0x21c, 0x40, 25, .rc, 0x0, 0x0, 0, 0, .none, 0⟩,
  ⟨0x220, 0x40, 25, .rc, 0x0, 0x0, 0, 0, .none, 0⟩,
  ⟨0x224, 0x40, 25, .rc, 0x0, 0x0, 0, 0, .none, 0⟩,
  ⟨0x228, 0x40, 25, .rc, 0x0, 0x0, 0, 0, .none, 0⟩]
/-- Register table of the PEER page. -/
def tablePEER : List RegDef := [
  ⟨0x100, 0x0, 1, .rw, 0x3ff1ff, 0x10, 1, 0, .none, 0⟩,
  ⟨0x104, 0x0, 1, .rw, 0x300ff, 0x20083, 0, 0, .none, 0⟩,
  ⟨0x108, 0x0, 1, .rw, 0xfffff0ff, 0x4040008, 0, 0, .none, 0⟩,
  ⟨0x10c, 0x0, 1, .rw, 0xffffffff, 0x0, 2, 0, .none, 0⟩,
  ⟨0x110, 0x0, 1, .rw, 0xf, 0x0, 2, 0, .none, 0⟩,
  ⟨0x114, 0x0, 1, .rw, 0x1ff, 0x0, 2, 0, .none, 0⟩,
  ⟨0x120, 0x4, 2, .ro, 0x0, 0x0, 0, 0, .none, 0⟩,
  ⟨0x140, 0x4, 16, .rw, 0x3ff, 0x0, 1, 0, .none, 0⟩,
  ⟨0x180, 0x0, 1, .rc, 0x0, 0x0, 0, 0, .none, 0⟩,
  ⟨0x184, 0x0, 1, .rc, 0x0, 0x0, 0, 0, .none, 0⟩,
  ⟨0x188, 0x0, 1, .rc, 0x0, 0x0, 0, 0, .none, 0⟩,
  ⟨0x18c, 0x0, 1, .rc, 0x0, 0x0, 0, 0, .none, 0⟩,
  ⟨0x190, 0x0, 1, .rc, 0x0, 0x0, 0, 0, .none, 0⟩,
  ⟨0x194, 0x0, 1, .rc, 0x0, 0x0, 0, 0, .none, 0⟩,
  ⟨0x198, 0x0, 1, .rc, 0x0, 0x0, 0, 0, .none, 0⟩,
  ⟨0x19c, 0x0, 1, .rc, 0x0, 0x0, 0, 0, .none, 0⟩,
  ⟨0x1a0, 0x0, 1, .rc, 0x0, 0x0, 0, 0, .none, 0⟩,
  ⟨0x1a4, 0x0, 1, .rc, 0x0, 0x0, 0, 0, .none, 0⟩]
/-- Register table of the TIME page. -/
def tableTIME : List RegDef := [
  ⟨0x100, 0x0, 1, .rw, 0xf, 0x2, 1, 0, .none, 0⟩,
  ⟨0x104, 0x0, 1, .rw, 0xffffffff, 0x0, 1, 0, .none, 0⟩,
  ⟨0x108, 0x0, 1, .rw, 0x1ff, 0x64, 1, 0, .none, 0⟩,
  ⟨0x10c, 0x0, 1, .rw, 0xffffffff, 0x3e8, 0, 0, .none, 0⟩,
  ⟨0x110, 0x0, 1, .rw, 0xffffffff, 0x0, 2, 0, .none, 0⟩,
  ⟨0x114, 0x0, 1, .rw, 0xffffffff, 0x0, 2, 0, .none, 0⟩,
  ⟨0x118, 0x0, 1, .rw, 0x1, 0x0, 2, 0, .none, 0⟩,
  ⟨0x11c, 0x0, 1, .rw, 0xfff00ff, 0xbb80000, 0, 0, .none, 0⟩,
  ⟨0x120, 0x0, 1, .wo, 0x0, 0x0, 0, 0, .none, 0⟩,
  ⟨0x124, 0x0, 1, .ro, 0x0, 0x0, 0, 0, .none, 0⟩,
  ⟨0x128, 0x0, 1, .ro, 0x0, 0x0, 0, 0, .none, 0⟩,
  ⟨0x12c, 0x0, 1, .ro, 0x0, 0x0, 0, 0, .none, 0⟩,
  ⟨0x130, 0x0, 1, .ro, 0x0, 0x0, 0, 0, .none, 0⟩,
  ⟨0x134, 0x0, 1, .ro, 0x0, 0x0, 0, 0, .none, 0⟩,
  ⟨0x138, 0x0, 1, .ro, 0x0, 0x0, 0, 0, .none, 0⟩,
  ⟨0x160, 0x0, 1, .rc, 0x0, 0x0, 0, 0, .none, 0⟩,
  ⟨0x164, 0x0, 1, .rc, 0x0, 0x0, 0, 0, .none, 0⟩,
  ⟨0x168, 0x0, 1, .rc, 0x0, 0x0, 0, 0, .none, 0⟩,
  ⟨0x16c, 0x0, 1, .rc, 0x0, 0x0, 0, 0, .none, 0⟩,
  ⟨0x170, 0x0, 1, .rc, 0x0, 0x0, 0, 0, .none, 0⟩,
  ⟨0x174, 0x0, 1, .rc, 0x0, 0x0, 0, 0, .none, 0⟩]
/-- Register table of the ETH page. -/
def tableETH : List RegDef := [
  ⟨0x100, 0x0, 1, .rw, 0xffffffff, 0x0, 0, 0, .none, 0⟩,
  ⟨0x104, 0x0, 1, .rw, 0xffff, 0x0, 0, 0, .none, 0⟩,
  ⟨0x108, 0x0, 1, .rw, 0x8000001f, 0x0, 0, 0, .none, 0⟩,
  ⟨0x10c, 0x0, 1, .rw, 0x8000001f, 0x0, 0, 0, .none, 0⟩,
  ⟨0x110, 0x0, 1, .rw, 0xffffffff, 0x0, 0, 0, .none, 0⟩,
  ⟨0x114, 0x0, 1, .rw, 0xffff, 0x0, 0, 0, .none, 0⟩,
  ⟨0x118, 0x0, 1, .ro, 0x0, 0x47002e, 0, 0, .none, 0⟩,
  ⟨0x11c, 0x0, 1, .ro, 0x0, 0x0, 0, 0, .none, 0⟩,
  ⟨0x120, 0x0, 1, .ro, 0x0, 0x0, 0, 0, .none, 0⟩,
  ⟨0x124, 0x0, 1, .ro, 0x0, 0x0, 0, 0, .none, 0⟩,
  ⟨0x128, 0x0, 1, .rc, 0x0, 0x0, 0, 0, .none, 0⟩,
  ⟨0x12c, 0x0, 1, .ro, 0x0, 0x0, 0, 0, .none, 0⟩,
  ⟨0x140, 0x0, 1, .rc, 0x0, 0x0, 0, 0, .none, 0⟩,
  ⟨0x144, 0x0, 1, .rc, 0x0, 0x0, 0, 0, .none, 0⟩,
  ⟨0x148, 0x0, 1, .rc, 0x0, 0x0, 0, 0, .none, 0⟩,
  ⟨0x14c, 0x0, 1, .rc, 0x0, 0x0, 0, 0, .none, 0⟩,
  ⟨0x150, 0x0, 1, .rc, 0x0, 0x0, 0, 0, .none, 0⟩,
  ⟨0x154, 0x0, 1, .rc, 0x0, 0x0, 0, 0, .none, 0⟩,
  ⟨0x158, 0x0, 1, .rc, 0x0, 0x0, 0, 0, .none, 0⟩]
/-- Register table of the LOOP page. -/
def tableLOOP : List RegDef := [
  ⟨0x100, 0x0, 1, .rw, 0x7f3fff, 0x4009c4, 1, 0, .none, 0⟩,
  ⟨0x104, 0x0, 1, .rw, 0x7ffff, 0x6ddd0, 0, 0, .zone, 0⟩,
  ⟨0x108, 0x0, 1, .rw, 0xfff7fff, 0xc80040, 0, 0, .zone, 0⟩,
  ⟨0x10c, 0x0, 1, .ro, 0x0, 0x0, 0, 0, .none, 0⟩,
  ⟨0x110, 0x0, 1, .wo, 0x0, 0x0, 0, 0, .none, 0⟩,
  ⟨0x114, 0x0, 1, .ro, 0x0, 0x0, 0, 0, .none, 0⟩,
  ⟨0x1e0, 0x0, 1, .rc, 0x0, 0x0, 0, 0, .none, 0⟩,
  ⟨0x1e4, 0x0, 1, .rc, 0x0, 0x0, 0, 0, .none, 0⟩,
  ⟨0x1e8, 0x0, 1, .rc, 0x0, 0x0, 0, 0, .none, 0⟩,
  ⟨0x1ec, 0x0, 1, .rc, 0x0, 0x0, 0, 0, .none, 0⟩,
  ⟨0x1f0, 0x0, 1, .rc, 0x0, 0x0, 0, 0, .none, 0⟩,
  ⟨0x1f4, 0x0, 1, .rc, 0x0, 0x0, 0, 0, .none, 0⟩,
  ⟨0x1f8, 0x0, 1, .rc, 0x0, 0x0, 0, 0, .none, 0⟩,
  ⟨0x1fc, 0x0, 1, .rc, 0x0, 0x0, 0, 0, .none, 0⟩,
  ⟨0x300, 0x8, 3, .rw, 0xffff, 0x1000, 0, 0, .none, 0⟩,
  ⟨0x320, 0x8, 3, .rw, 0xffff, 0x1000, 0, 0, .none, 0⟩,
  ⟨0x304, 0x8, 3, .rw, 0xffff, 0x0, 0, 0, .none, 0⟩,
  ⟨0x324, 0x8, 3, .rw, 0xffff, 0x0, 0, 0, .none, 0⟩,
  ⟨0x340, 0x4, 2, .rw, 0x7fff7fff, 0x7fff0000, 0, 0, .none, 0⟩,
  ⟨0x348, 0x4, 2, .rw, 0xffff, 0x0, 0, 0, .none, 0⟩,
  ⟨0x360, 0x4, 16, .rw, 0xffffffff, 0x40004000, 0, 0, .none, 0⟩,
  ⟨0x3a0, 0x4, 16, .rw, 0xffffffff, 0x40004000, 0, 0, .none, 0⟩,
  ⟨0x400, 0x4, 32, .rw, 0xffffffff, 0x10001000, 0, 0, .none, 0⟩,
  ⟨0x480, 0x4, 32, .rw, 0xffffffff, 0x10001000, 0, 0, .none, 0⟩,
  ⟨0x500, 0x4, 32, .rw, 0xffffffff, 0x10001000, 0, 0, .none, 0⟩,
  ⟨0x580, 0x4, 32, .rw, 0xffffffff, 0x10001000, 0, 0, .none, 0⟩,
  ⟨0x600, 0x4, 32, .rw, 0xffffffff, 0x10001000, 0, 0, .none, 0⟩,
  ⟨0x680, 0x4, 32, .rw, 0xffffffff, 0x10001000, 0, 0, .none, 0⟩,
  ⟨0x800, 0x10, 64, .rw, 0xffff, 0x0, 0, 0, .zone, 0⟩,
  ⟨0x804, 0x10, 64, .rw, 0xffffffff, 0x7fff7fff, 0, 0, .zone, 0⟩,
  ⟨0x808, 0x10, 64, .rw, 0x7fff, 0x0, 0, 0, .zone, 0⟩,
  ⟨0x80c, 0x10, 64, .rw, 0xffffffff, 0x0, 3, 0, .none, 0⟩,
  ⟨0xc00, 0x4, 64, .ro, 0x0, 0x0, 0, 0, .none, 0⟩,
  ⟨0xd00, 0x4, 64, .ro, 0x0, 0x0, 0, 0, .none, 0⟩]
/-- Register table of the AXIS page. -/
def tableAXIS : List RegDef := [
  ⟨0x100, 0x40, 4, .rw, 0xffff00f7, 0x32640080, 0, 0, .none, 0⟩,
  ⟨0x104, 0x40, 4, .rw, 0xffffff, 0xf4240, 0, 0, .none, 0⟩,
  ⟨0x108, 0x40, 4, .rw, 0xffffff, 0x1f4, 0, 0, .none, 0⟩,
  ⟨0x10c, 0x40, 4, .rw, 0xffffffff, 0x0, 0, 0, .none, 0⟩,
  ⟨0x110, 0x40, 4, .rw, 0xffffffff, 0x989680, 0, 0, .none, 0⟩,
  ⟨0x114, 0x40, 4, .rw, 0xffffff, 0x0, 0, 0, .none, 0⟩,
  ⟨0x118, 0x40, 4, .rw, 0xffffff, 0x4e20, 0, 0, .none, 0⟩,
  ⟨0x11c, 0x40, 4, .rw, 0xffffffff, 0x1000c8, 0, 0, .none, 0⟩,
  ⟨0x120, 0x40, 4, .rw, 0xffffffff, 0x0, 1, 1, .none, 0⟩,
  ⟨0x124, 0x40, 4, .rw, 0x3, 0x0, 1, 1, .none, 0⟩,
  ⟨0x128, 0x40, 4, .wo, 0x0, 0x0, 0, 0, .none, 0⟩,
  ⟨0x12c, 0x40, 4, .wo, 0x0, 0x0, 0, 0, .none, 0⟩,
  ⟨0x130, 0x40, 4, .ro, 0x0, 0x0, 0, 0, .none, 0⟩,
  ⟨0x134, 0x40, 4, .ro, 0x0, 0x0, 0, 0, .none, 0⟩,
  ⟨0x138, 0x40, 4, .ro, 0x0, 0x0, 0, 0, .none, 0⟩,
  ⟨0x13c, 0x40, 4, .rc, 0x0, 0x0, 0, 0, .none, 0⟩,
  ⟨0x200, 0x0, 1, .rw, 0x80000003, 0x0, 5, 0, .none, 0⟩,
  ⟨0x204, 0x0, 1, .rw, 0xffffff, 0x0, 5, 0, .none, 0⟩,
  ⟨0x208, 0x0, 1, .rw, 0xffffff, 0x0, 5, 0, .none, 0⟩,
  ⟨0x20c, 0x0, 1, .rw, 0xffffff, 0xf4240, 5, 0, .none, 0⟩,
  ⟨0x210, 0x0, 1, .rw, 0xffffff, 0x1f4, 5, 0, .none, 0⟩,
  ⟨0x214, 0x0, 1, .ro, 0x0, 0x0, 0, 0, .none, 0⟩,
  ⟨0x218, 0x0, 1, .rc, 0x0, 0x0, 0, 0, .none, 0⟩]
/-- Register table of the SAMPLE page. -/
def tableSAMPLE : List RegDef := [
  ⟨0x100, 0x0, 1, .rw, 0xff1f03ff, 0x9100000, 0, 0, .none, 0⟩,
  ⟨0x140, 0x4, 16, .rw, 0xffff, 0x0, 0, 0, .none, 0⟩,
  ⟨0x180, 0x4, 16, .ro, 0x0, 0x0, 0, 0, .none, 0⟩,
  ⟨0x1c0, 0x0, 1, .rc, 0x0, 0x0, 0, 0, .none, 0⟩,
  ⟨0x1c4, 0x0, 1, .rc, 0x0, 0x0, 0, 0, .none, 0⟩]
/-- Register table of the CHK page. -/
def tableCHK : List RegDef := [
  ⟨0x100, 0x80, 9, .rw, 0xf07f0007, 0x10200000, 0, 0, .none, 0⟩,
  ⟨0x104, 0x80, 9, .rw, 0xffffffff, 0x0, 0, 0, .none, 0⟩,
  ⟨0x108, 0x80, 9, .rw, 0xffffffff, 0x0, 0, 0, .none, 0⟩,
  ⟨0x10c, 0x80, 9, .rw, 0xffffffff, 0x0, 0, 0, .none, 0⟩,
  ⟨0x110, 0x80, 9, .rw, 0xffffffff, 0x0, 0, 0, .none, 0⟩,
  ⟨0x114, 0x80, 9, .rw, 0xffffffff, 0x0, 0, 0, .none, 0⟩,
  ⟨0x118, 0x80, 9, .rw, 0xffffffff, 0x0, 0, 0, .none, 0⟩,
  ⟨0x11c, 0x80, 9, .rw, 0xffffffff, 0x0, 0, 0, .none, 0⟩,
  ⟨0x120, 0x80, 9, .rw, 0xf, 0x0, 0, 0, .none, 0⟩,
  ⟨0x124, 0x80, 9, .rw, 0xffffffff, 0x0, 0, 0, .none, 0⟩,
  ⟨0x128, 0x80, 9, .rw, 0xffffffff, 0x0, 0, 0, .none, 0⟩,
  ⟨0x12c, 0x80, 9, .rw, 0xffffffff, 0x0, 0, 0, .none, 0⟩,
  ⟨0x130, 0x80, 9, .wo, 0x0, 0x0, 0, 0, .none, 0⟩,
  ⟨0x134, 0x80, 9, .ro, 0x0, 0x0, 0, 0, .none, 0⟩,
  ⟨0x138, 0x80, 9, .rw, 0xffffffff, 0x0, 0, 0, .none, 0⟩,
  ⟨0x13c, 0x80, 9, .rw, 0xffffffff, 0x0, 0, 0, .none, 0⟩,
  ⟨0x140, 0x80, 9, .ro, 0x0, 0x0, 0, 0, .none, 0⟩,
  ⟨0x144, 0x80, 9, .ro, 0x0, 0x0, 0, 0, .none, 0⟩,
  ⟨0x148, 0x80, 9, .ro, 0x0, 0x0, 0, 0, .none, 0⟩,
  ⟨0x600, 0x0, 1, .rw, 0x80000007, 0x0, 0, 0, .none, 0⟩,
  ⟨0x610, 0x0, 1, .rc, 0x0, 0x0, 0, 0, .none, 0⟩,
  ⟨0x614, 0x0, 1, .rc, 0x0, 0x0, 0, 0, .none, 0⟩,
  ⟨0x618, 0x0, 1, .rc, 0x0, 0x0, 0, 0, .none, 0⟩]
/-- Register table of the LEDGER page. -/
def tableLEDGER : List RegDef := [
  ⟨0x100, 0x0, 1, .rw, 0xffffffff, 0x0, 1, 0, .none, 0⟩,
  ⟨0x104, 0x0, 1, .rw, 0xf, 0x0, 1, 0, .none, 0⟩,
  ⟨0x108, 0x0, 1, .rw, 0x1fff, 0x0, 1, 0, .none, 0⟩,
  ⟨0x10c, 0x0, 1, .rw, 0xf00ffff, 0xb0003e8, 0, 0, .none, 0⟩,
  ⟨0x110, 0x0, 1, .rw, 0xffffff, 0x0, 0, 0, .none, 0⟩,
  ⟨0x114, 0x0, 1, .rw, 0xffff, 0x100, 0, 0, .none, 0⟩,
  ⟨0x118, 0x0, 1, .ro, 0x0, 0x0, 0, 0, .none, 0⟩,
  ⟨0x11c, 0x0, 1, .ro, 0x0, 0x0, 0, 0, .none, 0⟩,
  ⟨0x120, 0x0, 1, .ro, 0x0, 0x0, 0, 0, .none, 0⟩,
  ⟨0x140, 0x20, 8, .rw, 0xffffffff, 0x0, 2, 1, .none, 0⟩,
  ⟨0x144, 0x20, 8, .rw, 0xffffffff, 0x0, 2, 1, .none, 0⟩,
  ⟨0x148, 0x20, 8, .rw, 0x1fffff, 0x0, 2, 1, .none, 0⟩,
  ⟨0x14c, 0x20, 8, .rw, 0xfffff, 0x0, 0, 0, .none, 0⟩,
  ⟨0x150, 0x20, 8, .ro, 0x0, 0x0, 0, 0, .none, 0⟩,
  ⟨0x154, 0x20, 8, .rw, 0x800f013f, 0x0, 0, 0, .none, 0⟩,
  ⟨0x158, 0x20, 8, .rc, 0x0, 0x0, 0, 0, .none, 0⟩,
  ⟨0x240, 0x0, 1, .rw, 0xffffffff, 0x0, 10, 0, .none, 0⟩,
  ⟨0x244, 0x0, 1, .rw, 0xf, 0x0, 10, 0, .none, 0⟩,
  ⟨0x248, 0x0, 1, .rw, 0x1fff, 0x0, 10, 0, .none, 0⟩,
  ⟨0x24c, 0x0, 1, .rw, 0xffffffff, 0x0, 10, 0, .none, 0⟩,
  ⟨0x250, 0x0, 1, .rw, 0xffffffff, 0x0, 10, 0, .none, 0⟩,
  ⟨0x254, 0x0, 1, .rw, 0xffff, 0x0, 10, 0, .none, 0⟩,
  ⟨0x258, 0x0, 1, .rw, 0x8007ffff, 0x3d090, 0, 0, .none, 0⟩,
  ⟨0x25c, 0x0, 1, .rw, 0xffffffff, 0x0, 0, 0, .none, 0⟩,
  ⟨0x260, 0x0, 1, .ro, 0x0, 0x0, 0, 0, .none, 0⟩,
  ⟨0x264, 0x0, 1, .ro, 0x0, 0x0, 0, 0, .none, 0⟩,
  ⟨0x268, 0x0, 1, .ro, 0x0, 0x0, 0, 0, .none, 0⟩,
  ⟨0x26c, 0x0, 1, .ro, 0x0, 0x0, 0, 0, .none, 0⟩,
  ⟨0x280, 0x0, 1, .rc, 0x0, 0x0, 0, 0, .none, 0⟩,
  ⟨0x284, 0x0, 1, .rc, 0x0, 0x0, 0, 0, .none, 0⟩,
  ⟨0x288, 0x0, 1, .rc, 0x0, 0x0, 0, 0, .none, 0⟩,
  ⟨0x28c, 0x0, 1, .rc, 0x0, 0x0, 0, 0, .none, 0⟩,
  ⟨0x290, 0x0, 1, .rc, 0x0, 0x0, 0, 0, .none, 0⟩,
  ⟨0x294, 0x0, 1, .rc, 0x0, 0x0, 0, 0, .none, 0⟩,
  ⟨0x298, 0x0, 1, .rc, 0x0, 0x0, 0, 0, .none, 0⟩,
  ⟨0x29c, 0x0, 1, .rc, 0x0, 0x0, 0, 0, .none, 0⟩,
  ⟨0x2a0, 0x0, 1, .rc, 0x0, 0x0, 0, 0, .none, 0⟩,
  ⟨0x2a4, 0x0, 1, .rc, 0x0, 0x0, 0, 0, .none, 0⟩]
/-- Register table of the RING page. -/
def tableRING : List RegDef := [
  ⟨0x100, 0x0, 1, .rw, 0xffffffff, 0x0, 1, 0, .none, 0⟩,
  ⟨0x104, 0x0, 1, .rw, 0xffffffff, 0x0, 1, 0, .none, 0⟩,
  ⟨0x108, 0x0, 1, .rw, 0x1ffff, 0x0, 1, 0, .none, 0⟩,
  ⟨0x10c, 0x0, 1, .rw, 0x3f070301, 0x8000000, 1, 0, .none, 0⟩,
  ⟨0x110, 0x0, 1, .rw, 0x803f001f, 0x10, 0, 0, .none, 0⟩,
  ⟨0x114, 0x0, 1, .wo, 0x0, 0x0, 0, 0, .none, 0⟩,
  ⟨0x118, 0x0, 1, .ro, 0x0, 0x0, 0, 0, .none, 0⟩,
  ⟨0x11c, 0x0, 1, .ro, 0x0, 0x0, 0, 0, .none, 0⟩,
  ⟨0x120, 0x0, 1, .ro, 0x0, 0x0, 0, 0, .none, 0⟩,
  ⟨0x124, 0x0, 1, .rc, 0x0, 0x0, 0, 0, .none, 0⟩,
  ⟨0x128, 0x0, 1, .rc, 0x0, 0x0, 0, 0, .none, 0⟩,
  ⟨0x12c, 0x0, 1, .rc, 0x0, 0x0, 0, 0, .none, 0⟩,
  ⟨0x130, 0x0, 1, .rc, 0x0, 0x0, 0, 0, .none, 0⟩,
  ⟨0x134, 0x0, 1, .rc, 0x0, 0x0, 0, 0, .none, 0⟩]
/-- Bits of CTRL that a write sets; self-clearing bits are not among them (R27, R28 and the CTRL table of each page). -/
def ctrlMask (p : Nat) : Nat :=
  match p with
  | 8 => 0x3
  | 10 => 0x3
  | 12 => 0x3
  | 16 => 0x7
  | 18 => 0x3
  | 27 => 0x7
  | n => if n < 28 then 0x1 else 0x1
/-- Reset value of CTRL. -/
def ctrlReset (p : Nat) : Nat :=
  match p with
  | 0 => 0x1
  | 2 => 0x1
  | 10 => 0x2
  | 27 => 0x2
  | n => if n < 28 then 0x0 else 0x0
/-- Causes of IRQ_RAW, IRQ_MASK and IRQ_STAT that the page defines. -/
def irqMaskBits (p : Nat) : Nat :=
  match p with
  | 0 => 0x7
  | 1 => 0x7
  | 2 => 0x1f
  | 3 => 0xf
  | 4 => 0xff0f
  | 5 => 0x3f
  | 6 => 0xf
  | 7 => 0x1ff
  | 8 => 0x7f
  | 9 => 0x7
  | 10 => 0x1f
  | 11 => 0x1f
  | 12 => 0x7f
  | 13 => 0x3f
  | 14 => 0x7f
  | 15 => 0x3f
  | 16 => 0x7f
  | 17 => 0x7f
  | 18 => 0x7f
  | 19 => 0x3f
  | 20 => 0x3f
  | 21 => 0x7f
  | 22 => 0xf
  | 23 => 0x7f
  | 24 => 0x3f
  | 25 => 0x7
  | 26 => 0x1f
  | 27 => 0xff0f
  | n => if n < 28 then 0x3 else 0x1f
/-- PAGE_CAP of each page. -/
def capValue (p : Nat) : Nat :=
  match p with
  | 0 => 0x3c
  | 2 => 0x5
  | 3 => 0x508
  | 4 => 0x20080840
  | 5 => 0x440
  | 6 => 0x1000010
  | 7 => 0x40302002
  | 8 => 0xa04
  | 9 => 0x140408
  | 10 => 0x184002
  | 11 => 0x10001500
  | 12 => 0x22022
  | 13 => 0x1000408
  | 14 => 0xe0885
  | 15 => 0x2000905
  | 16 => 0x8040c
  | 17 => 0x3f08
  | 18 => 0xf1020
  | 19 => 0xc0719
  | 20 => 0x1003
  | 21 => 0x1f40002
  | 22 => 0x40
  | 23 => 0x404003
  | 24 => 0x6404
  | 25 => 0x10
  | 26 => 0x109
  | 27 => 0x2008
  | n => if n < 28 then 0x0 else 0x1020
/-- Register table of a page. -/
def tableOf (p : Nat) : List RegDef :=
  match p with
  | 0 => tableCHIP
  | 1 => tablePWR
  | 2 => tableLIFE
  | 3 => tableHOST
  | 4 => tableDMA
  | 5 => tableSCR
  | 6 => tableVAULT
  | 7 => tableHBM
  | 8 => tableMAIL
  | 9 => tableDEC
  | 10 => tableCMP
  | 11 => tableALBUM
  | 12 => tableTILE
  | 13 => tableFRANK
  | 14 => tableSPLIT
  | 15 => tablePLACE
  | 16 => tableSEAL
  | 17 => tableWEB
  | 18 => tableJLINK
  | 19 => tableLANE
  | 20 => tablePEER
  | 21 => tableTIME
  | 22 => tableETH
  | 23 => tableLOOP
  | 24 => tableAXIS
  | 25 => tableSAMPLE
  | 26 => tableCHK
  | 27 => tableLEDGER
  | _ => tableRING

/-- The row of a table that holds offset `o`, with the index of the register in the row. -/
def findReg : List RegDef → Nat → Option (RegDef × Nat)
  | [], _ => none
  | d :: ds, o =>
    if d.off ≤ o ∧ (if d.stride = 0 then o = d.off else (o - d.off) % d.stride = 0 ∧ (o - d.off) / d.stride < d.count)
    then some (d, if d.stride = 0 then 0 else (o - d.off) / d.stride) else findReg ds o

/-- Row of the common page header (R28). -/
def headerDef (p o : Nat) : Option RegDef :=
  match o with
  | 0x000 => some ⟨0, 0, 1, .ro, 0, (if p < 28 then p else 0x100 + (p - 28)) * 0x10000 + 0x100, 0, 0, .none, 0⟩
  | 0x004 => some ⟨4, 0, 1, .ro, 0, capValue p, 0, 0, .none, 0⟩
  | 0x008 => some ⟨8, 0, 1, .rw, ctrlMask p, ctrlReset p, 0, 0, .none, 0⟩
  | 0x00C => some ⟨0xC, 0, 1, .w1c, if p = 0 then 0x42 else 2, 0, 0, 0, .none, 0⟩
  | 0x010 => some ⟨0x10, 0, 1, .w1c, irqMaskBits p, 0, 0, 0, .none, 0⟩
  | 0x014 => some ⟨0x14, 0, 1, .rw, irqMaskBits p, 0, 0, 0, .none, 0⟩
  | 0x018 => some ⟨0x18, 0, 1, .ro, 0, 0, 0, 0, .none, 0⟩
  | 0x01C => some ⟨0x1C, 0, 1, .rw, 0xFF, 0, 0, 0, .none, 0⟩
  | 0x020 => some ⟨0x20, 0, 1, .rc, 0, 0, 0, 0, .none, 0⟩
  | 0x024 => some ⟨0x24, 0, 1, .ro, 0, 0, 0, 0, .none, 0⟩
  | 0x028 => some ⟨0x28, 0, 1, .rc, 0, 0, 0, 0, .none, 0⟩
  | _ => none

/-- The register at BAR0 byte offset `a`, a multiple of 4: its row and its index in the row. -/
def regDef? (a : Nat) : Option (RegDef × Nat) :=
  match pageOf a with
  | none => none
  | some p => if a % 0x1000 < 0x100 then (headerDef p (a % 0x1000)).map (·, 0) else findReg (tableOf p) (a % 0x1000)

/-- RAMP[i] after reset (R240). -/
def rampReset (i : Nat) : Nat := (rneDiv (256 * (511 - i)) 511).toNat

/-- Reset value of a register of a row, at index i. -/
def RegDef.resetAt (d : RegDef) (i : Nat) : Nat :=
  match d.special with
  | 0 => d.reset
  | 1 => i
  | 2 => rampReset (2 * i + 1) * 0x10000 + rampReset (2 * i)
  | 3 => if i < 8 then i else i + 1
  | _ => if i = 24 then 0x20 else d.reset

/-- Reset value of the register at a byte offset; 0 where no register stands (R9). -/
def resetOf (a : Nat) : Word :=
  match regDef? a with
  | none => 0
  | some (d, i) => BitVec.ofNat 32 (d.resetAt i)

/-- Commit group of a register (R30); 0 for a register of no group. -/
def groupOf (a : Nat) : Nat :=
  match regDef? a with
  | none => 0
  | some (d, i) => if d.grp = 0 then 0 else d.grp + d.gstep * i

/-- Hand-over event of a register (R35, R36). -/
def eventOf (a : Nat) : HandOver :=
  match regDef? a with
  | none => .none
  | some (d, _) => d.ev

/-- Byte offsets of the registers of a row, at page base `b`. -/
def RegDef.addrs (d : RegDef) (b : Nat) : List Nat := (List.range d.count).map fun i => b + d.off + d.stride * i

/-- The registers of commit group `g` of page `p` (R31). -/
def groupRegs (p g : Nat) : List Nat :=
  (tableOf p).flatMap fun d => if d.grp = 0 then [] else (d.addrs (pageBase p)).filter fun a => groupOf a == g

/-- The shadowed registers of no group that hand over at event `e` (R36). -/
def shadowRegs (e : HandOver) : List Nat :=
  (List.range 28).flatMap fun p => (tableOf p).flatMap fun d => if d.ev == e && d.grp == 0 then d.addrs (pageBase p) else []

end Sys2Proof.Machine
end

