-- ==== Sys2Proof/Machine/Codes.lean ====
section
/-! DEFINITION. Error codes (R42) and event codes (R580, with those of the PWR and LIFE pages). -/

namespace Sys2Proof.Machine

/-- CODE of an event of a page (R579, R580). -/
def evCode (page ev : Nat) : Nat := 0x4000 + page * 0x100 + ev

/-- Error codes (R42). -/
def E.NONE : Nat := 0x0000
def E.ZERO : Nat := 0x0001
def E.COMMIT_REJECT : Nat := 0x0002
def E.BAD_ACCESS : Nat := 0x0003
def E.UNMAPPED : Nat := 0x0004
def E.TAMPER : Nat := 0x0201
def E.LIFE_REFUSED : Nat := 0x0202
def E.LINK_DOWN : Nat := 0x0301
def E.POISONED : Nat := 0x0302
def E.DESC_FAULT : Nat := 0x0401
def E.QUEUE_OVERFLOW : Nat := 0x0402
def E.WRITE_LOST : Nat := 0x0501
def E.ECC_CORRECTED : Nat := 0x0502
def E.ECC_UNCORRECTABLE : Nat := 0x0503
def E.NO_RESERVE_BANK : Nat := 0x0504
def E.VAULT_LOCKED : Nat := 0x0601
def E.PARITY_REPLAY : Nat := 0x0701
def E.PARITY_FAIL : Nat := 0x0702
def E.SWEEP_STALE : Nat := 0x0703
def E.SEQ_GAP : Nat := 0x0801
def E.DUPLICATE : Nat := 0x0802
def E.AUTH_FAIL : Nat := 0x0803
def E.BUDGET_EXCEEDED : Nat := 0x0804
def E.BAD_CELL_GRID : Nat := 0x0805
def E.TOO_MANY_JOBS : Nat := 0x0806
def E.BAD_KIND : Nat := 0x0807
def E.BAD_CODE : Nat := 0x0901
def E.FAR_DISTANCE : Nat := 0x0902
def E.LENGTH_OVERRUN : Nat := 0x0903
def E.CHECK_MISMATCH : Nat := 0x0904
def E.VERIFY_FAIL : Nat := 0x0A01
def E.OUTPUT_FULL : Nat := 0x0A02
def E.ALBUM_FULL : Nat := 0x0B01
def E.STAMP_UNKNOWN : Nat := 0x0B02
def E.ALBUM_SCRUB_FAIL : Nat := 0x0B03
def E.TILE_FAULT : Nat := 0x0C01
def E.POSTINGS_FULL : Nat := 0x0C02
def E.GLYPH_MISSING : Nat := 0x0D01
def E.FIELD_OVERFLOW : Nat := 0x0D02
def E.DOSE_CLIPPED : Nat := 0x0E01
def E.TABLE_MISSING : Nat := 0x0E02
def E.OVERLAP_DISAGREE : Nat := 0x0F01
def E.WEAVE_RANGE : Nat := 0x0F02
def E.LATE_COUNTERSIGN : Nat := 0x1001
def E.SEAL_DISAGREE : Nat := 0x1002
def E.ECHO_MISMATCH : Nat := 0x1003
def E.ECHO_MISSING : Nat := 0x1004
def E.FRAME_LOST : Nat := 0x1005
def E.ENCODER_FAULT : Nat := 0x1101
def E.WEB_REVERSE : Nat := 0x1102
def E.POSTCARD_LOST : Nat := 0x1103
def E.LANE_LOST : Nat := 0x1201
def E.NO_RESERVE_LANE : Nat := 0x1202
def E.TELEMETRY_GAP : Nat := 0x1203
def E.TRAIN_FAIL : Nat := 0x1301
def E.ELASTIC_OVERFLOW : Nat := 0x1302
def E.PEER_LOST : Nat := 0x1401
def E.PEER_MSG_BAD : Nat := 0x1402
def E.OFFSET_BEYOND_SLEW : Nat := 0x1501
def E.STEP_REFUSED : Nat := 0x1502
def E.MASTER_LOST : Nat := 0x1503
def E.TS_QUEUE_FULL : Nat := 0x1601
def E.LOST : Nat := 0x1701
def E.FROZEN : Nat := 0x1702
def E.LIMIT_DURING_HOME : Nat := 0x1801
def E.LIMIT_TRIP : Nat := 0x1802
def E.SAMPLE_TIMEOUT : Nat := 0x1901
def E.COMPARE_FAIL : Nat := 0x1A01
def E.LEDGER_OVERRUN : Nat := 0x1B01
/-- Event codes (R580). -/
def V.RESET : Nat := 0x4001
def V.STATE : Nat := 0x4101
def V.TRANSITION : Nat := 0x4201
def V.TAMPER_CLEARED : Nat := 0x4202
def V.RETIRED : Nat := 0x4501
def V.WIPED : Nat := 0x4601
def V.POISONED_REQ : Nat := 0x4701
def V.REPAIR : Nat := 0x4702
def V.JOB_STARTED : Nat := 0x4801
def V.JOB_DONE : Nat := 0x4802
def V.JOB_ABORTED : Nat := 0x4803
def V.STARVED : Nat := 0x4804
def V.DAMAGE : Nat := 0x4C01
def V.TILE_MAP : Nat := 0x4C02
def V.LATE_POSTING : Nat := 0x4C03
def V.OVER_BUDGET : Nat := 0x4C04
def V.RELOAD : Nat := 0x4D01
def V.CHECKPOINT : Nat := 0x4D02
def V.FRANK_VOID : Nat := 0x4D03
def V.BEAM_WRITE : Nat := 0x4E01
def V.HEALTH : Nat := 0x4E02
def V.WEAVE : Nat := 0x4F01
def V.VERDICT : Nat := 0x4F02
def V.LATE_VERDICT : Nat := 0x4F03
def V.WEAVE_LOST : Nat := 0x4F04
def V.COUNTERSIGN : Nat := 0x5001
def V.CELL_VERDICT : Nat := 0x5002
def V.LATER_CAUSE : Nat := 0x5003
def V.ECHO_STRAY : Nat := 0x5004
def V.VOID_STAMP_ABSENT : Nat := 0x5005
def V.TIMELINE : Nat := 0x5101
def V.TIMELINE_FAULT : Nat := 0x5102
def V.STOP : Nat := 0x5103
def V.RUNNING : Nat := 0x5104
def V.OVERSPEED : Nat := 0x5105
def V.TRIG_IGNORED : Nat := 0x5106
def V.TAKEOVER : Nat := 0x5201
def V.UNROUTED : Nat := 0x5401
def V.WRAP : Nat := 0x5501
def V.STEP : Nat := 0x5502
def V.CORRECTION : Nat := 0x5503
def V.RESTART : Nat := 0x5701
def V.SAFE : Nat := 0x5702
def V.ACTION : Nat := 0x5801
def V.SPLICE : Nat := 0x5802
def V.UNIT_FAILED : Nat := 0x5A01
def V.CONT : Nat := 0x5B01
def V.LINE_WRAP : Nat := 0x5B02
def V.REG_WRITE : Nat := 0x5B03
def V.DIGEST : Nat := 0x5B04
def V.REPLAY_START : Nat := 0x5B05
def V.REPLAY_END : Nat := 0x5B06
def V.DIGEST_MISMATCH : Nat := 0x5B07

end Sys2Proof.Machine
end

