-- ==== Sys2Proof/Machine/Sparse.lean ====
section
/-! DEFINITION. Sparse maps in one canonical form: a list of (key, value) pairs, keys strictly rising, no entry equal to what an unlisted
key reads as. The registers of BAR0 (R22) and the memories (R481, R511, R526) are held in it. -/

namespace Sys2Proof.Machine

/-- The value at key `k`; `d` is what an unlisted key reads as. -/
def sparseGet {α : Type} : List (Nat × α) → Nat → α → α
  | [], _, d => d
  | (a, v) :: t, k, d => if a = k then v else sparseGet t k d

/-- The map with `v` at key `k`, where an unlisted `k` reads as `d`. -/
def sparseSet {α : Type} [DecidableEq α] : List (Nat × α) → Nat → α → α → List (Nat × α)
  | [], k, v, d => if v = d then [] else [(k, v)]
  | (a, w) :: t, k, v, d =>
    if k < a then (if v = d then (a, w) :: t else (k, v) :: (a, w) :: t)
    else if k = a then (if v = d then t else (k, v) :: t)
    else (a, w) :: sparseSet t k v d

/-- An element enters a list that is sorted by `key`, before those of its own key. -/
def insertBy {α : Type} (key : α → Nat) (x : α) : List α → List α
  | [] => [x]
  | y :: l => if key x ≤ key y then x :: y :: l else y :: insertBy key x l

/-- A list sorted by `key`; elements of one key keep their order. -/
def sortBy {α : Type} (key : α → Nat) (l : List α) : List α := l.foldr (insertBy key) []

/-- Keys are strictly rising and all at or above `lo`. -/
def risingFrom {α : Type} : Nat → List (Nat × α) → Bool
  | _, [] => true
  | lo, (a, _) :: t => decide (lo ≤ a) && risingFrom (a + 1) t

/-- The canonical form, for a map whose unlisted key `k` reads as `d k`. -/
def sparseWf {α : Type} [DecidableEq α] (d : Nat → α) (l : List (Nat × α)) : Bool :=
  risingFrom 0 l && l.all fun p => decide (p.2 ≠ d p.1)

/-- `n` consecutive bytes of a byte map from address `a`, where the map lists nothing below `a`; an unlisted byte reads 0. -/
def sparseRun : Nat → Nat → List (Nat × Byte) → List Byte
  | _, 0, _ => []
  | a, n + 1, [] => 0 :: sparseRun (a + 1) n []
  | a, n + 1, (k, b) :: t => if k = a then b :: sparseRun (a + 1) n t else 0 :: sparseRun (a + 1) n ((k, b) :: t)

/-- The entries of a run of bytes at address `a`, without its zero bytes. -/
def sparseCells : Nat → List Byte → List (Nat × Byte)
  | _, [] => []
  | a, b :: bs => if b = 0 then sparseCells (a + 1) bs else (a, b) :: sparseCells (a + 1) bs

/-- The entries of a byte map below address `a`. -/
def memBelow (m : List (Nat × Byte)) (a : Nat) : List (Nat × Byte) := m.filter fun c => decide (c.1 < a)

/-- The entries of a byte map at or above address `a`. -/
def memFrom (m : List (Nat × Byte)) (a : Nat) : List (Nat × Byte) := m.filter fun c => decide (a ≤ c.1)

/-- `n` bytes of a byte map from address `a`. -/
def memRead (m : List (Nat × Byte)) (a n : Nat) : List Byte := sparseRun a n (memFrom m a)

/-- One byte of a byte map. -/
def memByte (m : List (Nat × Byte)) (a : Nat) : Byte := sparseGet m a 0

/-- A byte map with the bytes `bs` stored from address `a`. -/
def memWrite (m : List (Nat × Byte)) (a : Nat) (bs : List Byte) : List (Nat × Byte) :=
  memBelow m a ++ sparseCells a bs ++ memFrom m (a + bs.length)

/-- A byte map with the bytes whose enable is true stored from address `a`. -/
def memWriteEn (m : List (Nat × Byte)) (a : Nat) : List (Option Byte) → List (Nat × Byte)
  | [] => m
  | none :: bs => memWriteEn m (a + 1) bs
  | some b :: bs => memWriteEn (memWrite m a [b]) (a + 1) bs

/-- A byte map with `n` zero bytes from address `a`. -/
def memZero (m : List (Nat × Byte)) (a n : Nat) : List (Nat × Byte) :=
  m.filter fun c => !(decide (a ≤ c.1) && decide (c.1 < a + n))

/-- A byte map with the `n` bytes at address `a` copied to address `b`. -/
def memCopy (m : List (Nat × Byte)) (a b n : Nat) : List (Nat × Byte) :=
  memBelow m b ++ (memBelow (memFrom m a) (a + n)).map (fun c => (b + (c.1 - a), c.2)) ++ memFrom m (b + n)

/-- The canonical form of a byte memory whose unlisted bytes read 0. -/
def memWf (m : List (Nat × Byte)) : Bool := sparseWf (fun _ => (0 : Byte)) m

/-- Keyed lists for tables of any data: the entry at a key. -/
def keyGet {α : Type} (l : List (Nat × α)) (k : Nat) : Option α := (l.find? fun p => p.1 == k).map (·.2)

/-- The keyed list with the entry at `k` replaced or added, keys rising. -/
def keySet {α : Type} : List (Nat × α) → Nat → α → List (Nat × α)
  | [], k, v => [(k, v)]
  | (a, w) :: t, k, v => if k < a then (k, v) :: (a, w) :: t else if k = a then (k, v) :: t else (a, w) :: keySet t k v

/-- The keyed list without the entry at `k`. -/
def keyErase {α : Type} (l : List (Nat × α)) (k : Nat) : List (Nat × α) := l.filter fun p => p.1 != k

/-- Element `i` of a list changed by `f`; the list unchanged where `i` is past its end. -/
def modAt {α : Type} (l : List α) (i : Nat) (f : α → α) : List α := l.modify i f

end Sys2Proof.Machine
end

