-- ==== Sys2Proof/Machine/State.lean ====
section
/-! DEFINITION. The state of Riluz as plain data: every register (sparse, in canonical form), memory, queue, counter, mode and pin the spec
gives the block, the queue of waiting commands, and the log of what the block sent out. -/

namespace Sys2Proof.Machine

/-- Faults. No command of the spec stops the block, so no meaning raises one; the constructor keeps the type closed. -/
inductive Fault where
  /-- Raised by nobody: the spec names no command that stops the block. Safe. -/
  | stuck
  deriving DecidableEq, Repr

/-- Refusals. -/
inductive Refusal where
  /-- Raised by an arm of `exec` whose command has no meaning yet. Safe. -/
  | notModelled (mnemonic : String)
  /-- Raised by JTAG_INSTRUCTION for an instruction register code whose effect the spec does not state (R649). Safe. -/
  | jtagUnspecified
  deriving DecidableEq, Repr

/-- A listed field of a ledger record (R581): `n` bytes of a value, or a line time, which is left out when it equals the one of AUX. -/
inductive Fld where
  | f (n v : Nat)
  | lt (v : Nat)
  deriving DecidableEq, Repr

/-- A record waiting for the ledger writer (R578, R584). -/
structure Rec where
  src : Nat
  code : Nat
  flds : List Fld
  /-- The line time of AUX where the record's own rule names it. -/
  aux : Option Nat := none
  /-- Page whose ERR_CODE latches the code (R29). -/
  latch : Option Nat := none
  /-- The tally that the record opens or closes (R586, R587). -/
  opens : Option Nat := none
  closes : Option Nat := none
  deriving DecidableEq, Repr

/-- An open tally (R586): its cause, its count, the line times of its first and last report, the further fields of its closing record,
and whether its run ends with the first line time without a report. -/
structure Tally where
  id : Nat
  src : Nat
  code : Nat
  key : Nat
  count : Nat
  first : Nat
  last : Nat
  extra : List Fld
  byLine : Bool
  /-- Line times that it has stayed open (R588). -/
  age : Nat := 0
  deriving DecidableEq, Repr

/-- What the ledger keeps of a record of the ring that is not exported yet (R592, R594). -/
structure RingRec where
  seq : Nat
  own : Bool
  epoch : Nat
  lineHi : Nat
  deriving DecidableEq, Repr

/-- A closed segment (R593): its records, and its packed form once packing has ended. -/
structure Segment where
  count : Nat
  packing : Bool
  packed : Option Nat
  deriving DecidableEq, Repr

/-- What a segment carries (R270, R330): the prefix fields and its 4,096 codes; an empty list stands for codes that are all 0. -/
structure SegData where
  job : Nat := 0
  line : Nat := 0
  row : Nat := 0
  strip : Nat := 0
  mode : Nat := 2
  codes : List Byte := []
  deriving DecidableEq, Repr

/-- The ledger (R578 to R606). -/
structure Ledger where
  /-- Waiting records by source (R584). -/
  queues : List (Nat × List Rec) := []
  /-- Records dropped by a source since its last LEDGER_OVERRUN record (R584). -/
  dropped : List (Nat × Nat) := []
  tallies : List Tally := []
  tallyNext : Nat := 0
  /-- SEQ of opening records, by tally, until the closing record is taken. -/
  tallySeq : List (Nat × Nat) := []
  /-- Records held on the die while CTRL.EN is 0 (R585). -/
  held : List (List Byte × RingRec) := []
  seq : Nat := 0
  /-- Ring slots written since the ring was last placed. -/
  written : Nat := 0
  /-- Records of the ring not exported yet, oldest first. -/
  waiting : List RingRec := []
  segment : Option Segment := none
  gap : Bool := false
  overrun : Bool := false
  /-- The window length in force (R599), 0 where no window has begun, and the segments computed in it, latest first: line time, what each
  carries. -/
  digestN : Nat := 0
  seals : List (Nat × SegData) := []
  deriving DecidableEq, Repr

/-- An MSI-X table entry (R534; PCI Express Base Specification). -/
structure MsixEntry where
  addrLo : Word := 0
  addrHi : Word := 0
  data : Word := 0
  masked : Bool := true
  deriving DecidableEq, Repr

/-- Interrupts (R40, R41). -/
structure Irq where
  /-- Level of each of the 60 sources. -/
  level : List Bool := List.replicate 60 false
  /-- Sources in holdoff, with the mark of a message held back. -/
  holdoff : List (Nat × Bool) := []
  table : List MsixEntry := List.replicate 64 {}
  pba : List Nat := []
  deriving DecidableEq, Repr

/-- An accepted commit of a shadowed group (R31 to R33): page, group, values, whether it waits one hand-over longer (R36), and the job number
that a FRANK reload keeps (R165). -/
structure Pend where
  page : Nat
  group : Nat
  vals : List (Nat × Word)
  late : Bool
  job : Nat := 0
  deriving DecidableEq, Repr

/-- What a codeword carries (R325, R332, R392): content bytes, or those of PART `p` of a segment. -/
inductive Content where
  | bytes (bs : List Byte)
  | part (d : SegData) (p : Nat)
  deriving DecidableEq, Repr

/-- How a lane sends its levels (R360, R368): whether it precodes, from which last symbol, and whether its pair is inverted. -/
structure Pam where
  precode : Bool := false
  last : Nat := 0
  invert : Bool := false
  deriving DecidableEq, Repr

/-- What the block sends out. -/
inductive Out where
  /-- MSI-X message: vector, address, data (R41). -/
  | msix (vector : Nat) (addr : Nat) (data : Word)
  /-- Posted write of bytes to a host address (R541, R557, R594, R595). -/
  | hostWrite (addr : Nat) (bytes : List Byte)
  /-- A read request for bytes at a host address (R540, R551). -/
  | hostRead (addr bytes : Nat)
  /-- A configuration request is answered with Configuration Request Retry Status (R650). -/
  | configRetry
  /-- A codeword on a lane: its header and what it carries; its levels are those of `codewordLevels`, up to the word at which a marker pre-empts
  it, and from there on those of `resumedLevels` (R324 to R328, R338, R359, R391). -/
  | codeword (lane header : Nat) (content : Content) (pam : Pam)
  /-- A training frame on a lane: its 48 field bits; its levels are those of `trainingLevels` (R371). -/
  | training (lane fields : Nat)
  /-- A marker word on a head lane, 160 bits, and after how many words of the codeword in progress it goes out (R338); none where it waits for a
  codeword boundary (R340). -/
  | marker (lane word : Nat) (after : Option Nat) (pam : Pam)
  /-- A record on REJECT_DAT, 80 bits, most significant bit first (R280). -/
  | reject (bits : Nat)
  /-- A step of an axis, with the level of DIR at the ball, and the ns that STEP is high (R456, R458). -/
  | step (axis : Nat) (dir : Bool) (ns : Nat)
  /-- A pulse on LINE_TRIG_OUT of so many ns (R309). -/
  | lineTrig (ns : Nat)
  /-- A frame of the sample bus (R451): SB_SEL_N falls, SB_DO carries these command words MSB first, one in each slot of 33 clock periods and
  0 in the slot's other periods, and SB_SEL_N rises. -/
  | sampleFrame (cmds : List Nat)
  /-- TAMPER_A takes a level (R626). -/
  | tamperA (level : Bool)
  /-- What the TAP shifts out on TDO, the bit next to TDO first (R649). -/
  | tdo (bits : List Bool)
  /-- An Ethernet frame without its FCS (R429, R432). -/
  | ethFrame (bytes : List Byte)
  deriving DecidableEq, Repr

/-- Network time (R410 to R425). -/
structure TimeUnit where
  /-- EPOCH, NS and FRAC (R410, R411). -/
  epoch : Nat := 0
  ns : Nat := 0
  frac : Nat := 0
  /-- Remaining correction, 2^-32 ns: what a tick takes from it is a whole number of these (R410). -/
  rem : Int := 0
  /-- Correction requests that landed while the time clock was stopped, oldest first: CORR and CORR_MODE.STEP (R412, R417, R617). -/
  requests : List (Nat × Bool) := []
  beyond : Bool := false
  sessionOpen : Bool := false
  stepUsed : Bool := false
  sessionSyncs : Nat := 0
  deriving DecidableEq, Repr

/-- An entry of the transmit timestamp queue (R429): NS, FRAC bits [31:16], EPOCH bits [15:0], TAG. -/
structure TxStamp where
  ns : Nat
  frac : Nat
  epoch : Nat
  tag : Nat
  deriving DecidableEq, Repr

/-- The Ethernet port (R426 to R432). -/
structure Eth where
  /-- LINK.STATE: 0 DOWN, 1 ALIGN, 2 UP. -/
  link : Nat := 0
  txts : List TxStamp := []
  /-- Buffers of the transmit ring whose data have come, oldest first. -/
  txQueue : List (List Byte) := []
  deriving DecidableEq, Repr

/-- What the receiver of one physical pair has found (R374, R375, R380). -/
structure RxPair where
  cdr : Bool := false
  /-- Training frames passed in a row, up to 3. -/
  frames : Nat := 0
  polInv : Bool := false
  /-- TX_ID of the latest valid frame. -/
  txId : Nat := 0
  deriving DecidableEq, Repr

/-- One serial lane (R368 to R381, R322, R393). -/
structure Lane where
  /-- TSTATE of R369. -/
  tstate : Nat := 0
  failWhy : Nat := 0
  /-- Link state: R322 on head lanes; 0 OFF, 1 TRAIN, 2 ALIGN, 3 ACTIVE, 4 SPARE, 5 LOST on peer lanes. -/
  link : Nat := 0
  detect : Bool := false
  /-- LCFG as START took it (R368), and LINK_CFG as the lock search took it (R353, R408). -/
  cfg : Nat := 0
  linkCfg : Nat := 0
  precodeTx : Bool := false
  precodeRx : Bool := false
  /-- PRECODE_ON, PRECODE_REQ and RX_READY of the partner's latest valid frame (R380, R369). -/
  partnerPrecodeOn : Bool := false
  partnerPrecodeReq : Bool := false
  partnerReady : Bool := false
  rxReady : Bool := false
  /-- The partner's frames have shown a SEEN_ID that agrees with the order (R375). -/
  seenOk : Bool := false
  /-- Statuses sent for PRE2, PRE1, MAIN, POST1, two bits each (R377). -/
  txStatus : Nat := 0
  /-- Field bits [10:0] of the request this receiver makes, and its place in the handshake: 0 asks, 1 holds, 2 adapts (R377, R379). -/
  request : Nat := 0
  phase : Nat := 0
  adaptFrames : Nat := 0
  requests : Nat := 0
  rxLock : Bool := false
  /-- The word offset at which the receiver looks for codewords (R329). -/
  wordOffset : Nat := 0
  /-- The latest LINK message for the lane reported LOCKED (R353); and one has reported so since the lane entered ALIGN (R322). -/
  headLock : Bool := false
  headHere : Bool := false
  goodRun : Nat := 0
  badRun : Nat := 0
  /-- Consecutive FILL or IDLE codewords (R384). -/
  idleRun : Nat := 0
  frozen : Bool := false
  /-- The CTLE step and DFE taps 1 to 12 that the receiver has adapted to; none before it has adapted (R382). -/
  eq : List Nat := []
  /-- IDLE codewords sent since ALIGN (R328, R392), and the position of the next codeword, 0 to 1,023 (R328). -/
  idles : Nat := 0
  txPos : Nat := 0
  /-- Eighths of a UI left of the codeword or training frame being sent (R325, R371). -/
  txLeft : Nat := 0
  /-- The codeword sent last: its header, what it carries, and how it began (R338, R360). -/
  txWord : Option (Nat × Content × Pam) := none
  /-- The last symbols sent and received, for precoding (R360). -/
  txLast : Nat := 0
  rxLast : Nat := 0
  /-- The lane has just entered UP or SPARE and has sent no marker since (R340). -/
  entered : Bool := false
  deriving DecidableEq, Repr

/-- Order of a lane group (R375). -/
structure LaneOrder where
  known : Bool := false
  rxRev : Bool := false
  txKnown : Bool := false
  txRev : Bool := false
  deriving DecidableEq, Repr

/-- The serial lanes (R355 to R390). `es` is the lane that an eye scan runs on. -/
structure Lanes where
  /-- The lane that an eye scan runs on, and its DWELL (R387). -/
  es : Option (Nat × Nat) := none
  lane : List Lane := List.replicate 25 {}
  pair : List RxPair := List.replicate 25 {}
  order : List LaneOrder := List.replicate 4 {}
  deriving DecidableEq, Repr

/-- A takeover that waits for SWAP_READY (R350). -/
structure Takeover where
  strip : Nat
  fromLane : Nat
  toLane : Nat
  swapId : Nat
  deriving DecidableEq, Repr

/-- A HEALTH message (R344): beams FIRST to FIRST + COUNT - 1 of ROW in the state of FAILED. -/
structure HealthMsg where
  row : Nat
  failed : Bool
  first : Nat
  count : Nat
  deriving DecidableEq, Repr

/-- A health report (R344): its number, whether it is FULL, and its messages in order. -/
structure HealthReport where
  number : Nat
  full : Bool
  msgs : List HealthMsg
  deriving DecidableEq, Repr

/-- Jembi Link (R320 to R354), apart from its outstanding segments. -/
structure JLink where
  /-- Lane groups of which a lane has been brought up since reset: GROUP_INFO of another one reads its reset value (R353). -/
  groups : List Nat := []
  /-- R314 withheld the last marker (R340). -/
  withheld : Bool := false
  takeovers : List Takeover := []
  /-- SWAP_ID of the last SWAP sent. -/
  swapId : Nat := 0
  healthGap : Bool := false
  /-- Number of the last health report taken (R344). -/
  lastReport : Option Nat := none
  /-- SEQ of each zone's last ZONE message (R346). -/
  zoneSeq : List (Nat × Nat) := []
  /-- Return messages passed on and not acted on yet (R363): lane, message. -/
  inbox : List (Nat × List Byte) := []
  /-- The report being gathered (R344). -/
  gather : Option HealthReport := none
  /-- Whole reports that wait for the SPLIT hand-over edge (R214). -/
  reports : List HealthReport := []
  deriving DecidableEq, Repr

/-- One side of a peer chain (R391 to R407). -/
structure Side where
  up : Bool := false
  peerDev : Nat := 0
  /-- LOCKS of the latest hello (R392). -/
  locks : Nat := 0
  nextSeq : Nat := 0
  ack : Nat := 511
  /-- Codewords sent and not acknowledged, oldest first: SEQ, content. -/
  unacked : List (Nat × List Byte) := []
  /-- Codewords that arrived ahead. -/
  ahead : List (Nat × List Byte) := []
  /-- Messages queued: priority class of R403, bytes. -/
  queue : List (Nat × List Byte) := []
  /-- Letter bytes sent since UP, and the latest FWD_LIMIT of the other end (R404). -/
  fwdSent : Nat := 0
  fwdLimit : Nat := 0
  /-- Letter bytes that have left the forward buffer since UP (R405). -/
  fwdLeft : Nat := 0
  /-- The forward buffer: next offset to write, and the letters in it not taken yet: offset, bytes. -/
  fwdPos : Nat := 0
  letters : List (Nat × Nat) := []
  /-- Letters that are not whole yet: SRC, offset in the buffer, TOTAL, bytes so far. -/
  partials : List (Nat × Nat × Nat × Nat) := []
  deriving DecidableEq, Repr

/-- Peer chains (R391 to R409). -/
structure Peers where
  side : List Side := List.replicate 2 {}
  /-- DATA and IDLE codewords decoded and not acted on yet (R392): lane, header, content. -/
  rxq : List (Nat × Nat × List Byte) := []
  /-- Letters of this device that wait to be forwarded, oldest first: device, bytes (R404). -/
  forward : List (Nat × List Byte) := []
  /-- Messages taken and not acted on yet: MKIND, side (2 for Ethernet), body. -/
  inbox : List (Nat × Nat × List Byte) := []
  deriving DecidableEq, Repr

/-- A row activation table of a bank (R491): rows and counts, in the order of its entries. -/
abbrev ActTable := List (Nat × Nat)

/-- In-package memory apart from its contents (R481 to R509). -/
structure Hbm where
  /-- Interface delays by set, kind, channel and lane (R497, log 8). -/
  delays : List (Nat × Nat) := []
  rateNow : Nat := 0
  rateBusy : Bool := false
  /-- SWEEP_CTRL, SWEEP_RANGE and the address of the running sweep (R498). -/
  sweep : Option (Nat × Nat × Nat) := none
  /-- REPAIR_SEL of the running repair (R505). -/
  repair : Option Nat := none
  temp : List Nat := [0, 0]
  hot : List Bool := [false, false]
  /-- 0 ACTIVE, 1 POWER_DOWN, 2 SELF_REFRESH (R502, R503). -/
  low : Nat := 0
  /-- The use of free values that the contents of HBM have since a reset left them undefined (R618); none after power-on (log 4). -/
  era : Option Nat := none
  tables : List (Nat × ActTable) := []
  /-- Queued writes by pseudo channel (R487). -/
  writes : List (Nat × Nat) := []
  /-- Units of the last 64 commands of each channel, latest first (R493). -/
  retry : List (Nat × List Nat) := []
  /-- Replays of the same commands by channel (R494). -/
  replays : List (Nat × Nat) := []
  /-- BAR2 accesses and lead ring writes that wait while the controller serves no request (R500, R505, R508). -/
  waiting : List (Nat × Bar2Op × MemRep) := []
  /-- Poisoned requests of PARITY_FAIL whose outcome has not come yet: requester, device address (R494). -/
  poisonDue : List (Nat × Nat) := []
  deriving DecidableEq, Repr

/-- A retirement in progress (R520): logical bank, old bank, reserve. -/
structure Retirement where
  bank : Nat
  old : Nat
  reserve : Nat
  deriving DecidableEq, Repr

/-- Scratch banks apart from their contents (R510 to R525). -/
structure Scratch where
  map : List Nat := List.range 64
  /-- State of each physical bank: 0 IN_USE, 1 FREE, 2 COPYING, 3 RETIRED. -/
  state : List Nat := List.replicate 64 0 ++ List.replicate 4 1
  corr : List Nat := List.replicate 68 0
  retiring : Option Retirement := none
  /-- COPY_POS: the first word that COPY has not copied (R520). -/
  copyPos : Nat := 0
  /-- Logical banks that wait for retirement, in the order of their causes (R519). -/
  queue : List Nat := []
  /-- Words whose check bits show a double-bit error: physical bank times 65,536 plus word, rising. The contents of the banks stand in
  `State.mem`; the other words hold the check bits of their data (R510, R518, R522, log 71). -/
  bad : List Nat := []
  /-- Physical banks for which NO_RESERVE_BANK was recorded (R524). -/
  noReserve : List Nat := []
  /-- The clearing of R525 is due or runs: from the fall of the main rails until POWER_ON, which ends after it (R620). -/
  clearing : Bool := false
  deriving DecidableEq, Repr

/-- The vault (R526 to R529). -/
structure Vault where
  mem : List Host.Cell := []
  /-- Words of 8 bytes whose check bits show a double-bit error (R526, R527). -/
  bad : List Nat := []
  valid : Nat := 0
  /-- Cause of the wipe that runs: 1 TAMPER, 2 LIFE, 3 HOST. -/
  wiping : Option Nat := none
  /-- DONE and CAUSE of WIPE_STATUS. -/
  wiped : Nat := 0
  /-- The last access was refused (R528). -/
  lockedRun : Bool := false
  deriving DecidableEq, Repr

/-- A descriptor that an engine has taken (R539, R542). -/
structure Desc where
  index : Nat
  bytes : List Byte
  bind : Nat
  fault : Bool := false
  poisoned : Bool := false
  /-- MAIL: its bytes are discarded (R46, R544); parsing starts at it (R46, R537, R542). -/
  drop : Bool := false
  first : Bool := false
  /-- Data bytes whose bursts have been issued, and its bursts whose data have not left the buffer: each holds a block (R551, R552). -/
  sent : Nat := 0
  blocks : Nat := 0
  /-- ETH_RX: receive header and frame (R428). -/
  frame : Option (List Byte) := none
  /-- CMP: STATUS, output length, check value (R541, R557). -/
  done : Option (Nat × Nat × Nat) := none
  deriving DecidableEq, Repr

/-- A descriptor ring (R546 to R554). -/
structure Ring where
  head : Nat := 0
  waiting : Bool := false
  halted : Bool := false
  /-- A descriptor read is in flight, though WAITING is set (R548). -/
  reading : Bool := false
  doorbell : Bool := false
  pacePend : Nat := 0
  /-- Letter parsing starts again at the next descriptor taken (R46, R537, R542). -/
  restart : Bool := false
  taken : List Desc := []
  /-- A completion that waits for its full completion queue (R558). -/
  stalled : Option (List Byte × MoveRep) := none
  bytes : Nat := 0
  deriving DecidableEq, Repr

/-- The letter stream of a ring (R44): whole letters that have not arrived yet, the bytes of the one in progress, and whether a bad MAGIC
has ended the parsing (R46). -/
structure Stream where
  letters : List (List Byte) := []
  part : List Byte := []
  mute : Bool := false
  /-- Its next letter has found the mailbag region full and waits (R484). -/
  full : Bool := false
  deriving DecidableEq, Repr

/-- The DMA engine (R546 to R560). -/
structure Dma where
  ring : List Ring := List.replicate 32 {}
  /-- PHASE of the current pass of each completion queue (R556). -/
  phase : List Bool := List.replicate 8 true
  readBytes : Nat := 0
  writeBytes : Nat := 0
  /-- Rings of the bursts that hold a block of the read engine, and of the write engine, oldest first (R552). -/
  flightRead : List Nat := []
  flightWrite : List Nat := []
  /-- The ring that got the latest burst of the read engine, and of the write engine (R553). -/
  lastRead : Nat := 31
  lastWrite : Nat := 31
  stream : List Stream := List.replicate 32 {}
  /-- Ring countersigns that the seal unit has not taken yet (R267). -/
  countersigns : List (List Byte) := []
  deriving DecidableEq, Repr

/-- The host port: what the last host read returned, with its EP bit (R27, R536, R538). -/
structure HostPort where
  data : List Byte := []
  ep : Bool := false
  d3hot : Bool := false
  /-- Max_Payload_Size and Max_Read_Request_Size in bytes, and whether ECRC is generated and checked (R533, log 13). -/
  maxPayload : Nat := 128
  maxRead : Nat := 512
  ecrcGen : Bool := false
  ecrcCheck : Bool := false
  /-- LINK register (R560). -/
  link : Nat := 0
  deriving DecidableEq, Repr

/-- Life cycle, OTP and the always-on domain (R622 to R629). -/
structure Life where
  /-- State of R622. -/
  st : Nat := 1
  /-- OTP identity page (R629, log 6). -/
  idPage : List Byte := [0x4B, 0x34, 0x54, 0x37, 0x51, 0x32, 0x4D, 0x11, 0x0E, 0x09, 0x02, 0x00, 0xE8, 0x07, 0x07, 0x16,
    0x18, 0x6B, 0xD4, 0xE2, 0x07, 0x5C, 0x91, 0x3A, 0x00, 0x00, 0x00, 0x00, 0x2F, 0x08, 0xE5, 0xDD]
  returnKey : List Byte := List.replicate 32 0
  wrongCodes : Nat := 0
  why : Nat := 0
  codes : List Word := [0, 0, 0, 0]
  /-- Target of the transition that runs (R625). -/
  target : Option Nat := none
  tamperEn : Bool := false
  latch : Bool := false
  mismatch : Bool := false
  /-- Samples that must still match before TAMPER_CLEAR takes effect (R628). -/
  unmatched : Nat := 0
  /-- The LFSR that drives TAMPER_A, and ns since the last always-on clock (R626). -/
  lfsr : Nat := 1
  aonAge : Nat := 0
  vbatLost : Bool := false
  deriving DecidableEq, Repr

/-- Power states and reset (R607 to R621). -/
structure Power where
  /-- State of R607. -/
  st : Nat := 1
  lastWake : Nat := 0
  resetCause : Nat := 0
  clocks : Nat := 0
  /-- Domains whose clock a lost PLL has stopped: 4 time, 6 axis (R617). -/
  stopped : List Nat := []
  ready : Bool := false
  /-- Lanes powered down at NAP, with the link state they held (R612). -/
  napped : List (Nat × Nat) := []
  /-- Power state of the moment NAP was entered, for NAP_MS: local time in ns. -/
  napSince : Nat := 0
  deriving DecidableEq, Repr

/-- The TAP (R649): the instruction in force (0 BYPASS, 1 IDCODE, 2 SAMPLE/PRELOAD, 3 EXTEST, 4 a test instruction), the data register it
selects, the levels that SAMPLE captured, and those that EXTEST drives. -/
structure Tap where
  ir : Nat := 1
  dr : Nat := 0x027416B5
  sampled : List Bool := []
  /-- The boundary-scan cells' update latches: the levels that PRELOAD or EXTEST shifted in last. -/
  latch : List Bool := List.replicate 37 false
  driven : Option (List Bool) := none
  deriving DecidableEq, Repr

/-- A running scan of a check unit, as its start took it (R565). -/
structure Scan where
  cfg : Nat
  poly : Nat
  init : Nat
  xorOut : Nat
  addr : Nat
  len : Nat
  expect : Nat
  /-- Running value before the first byte. -/
  run : Nat
  deriving DecidableEq, Repr

/-- A check unit by number (R563 to R575). -/
structure ChkUnit where
  scan : Option Scan := none
  testing : Bool := false
  run : Nat := 0
  /-- The running value that host software wrote while the album scrub owned the unit: its next own start takes it (R573). -/
  hostRun : Option Nat := none
  deriving DecidableEq, Repr

/-- A scrub that runs (R120, R573): its unit, the slot, job and number of its stamp, the device memory of the stamp's frames, and its check
value. -/
structure ScrubRun where
  unit : Nat
  slot : Nat
  job : Nat
  num : Nat
  frames : List (Nat × Nat)
  check : Nat
  deriving DecidableEq, Repr

/-- The check units; `failed` is by physical unit (R574, R575), `scrub` is the album scrub that runs, and `album` the unit of the latest stamp
that it began (R573). -/
structure Chk where
  unit : List ChkUnit := List.replicate 9 {}
  failed : List Bool := List.replicate 9 false
  scrub : Option ScrubRun := none
  album : Option Nat := none
  deriving DecidableEq, Repr

/-- States of a zone (R443). -/
inductive ZoneState where
  | off | run | hold | safe
  deriving DecidableEq, Repr

/-- A source zone (R436 to R447). Telemetry values are Q1.15 as the head sent them. -/
structure Zone where
  st : ZoneState := .off
  /-- 0 none, 1 LOST, 2 FROZEN. -/
  cause : Nat := 0
  miss : Nat := 0
  still : Nat := 0
  power : Nat := 0
  temp : Nat := 0
  current : Nat := 0
  supply : Nat := 0
  alive : Option Bool := none
  /-- A message arrived since the last boundary, and one of them toggled ALIVE (R438). -/
  fresh : Bool := false
  toggled : Bool := false
  /-- Integrators, 2^-31 of full scale. -/
  integ : List Int := [0, 0, 0]
  /-- u and out of the last sample, and the winner. -/
  u : Int := 0
  out : Nat := 0
  winner : Nat := 0
  /-- Zone samples spent in HOLD. -/
  held : Nat := 0
  /-- The zone has entered HOLD, and the hand-over edge of F is still to come (R444, R445). -/
  early : Bool := false
  /-- Commands that wait for a boundary (R447), oldest first: 1 START, 2 RESTART, and whether it waits for the boundary after the coming
  one (R36). -/
  asks : List (Nat × Bool) := []
  deriving DecidableEq, Repr

/-- Source power loops (R436 to R450). -/
structure Loops where
  zone : List Zone := List.replicate 64 {}
  bank : Nat := 0
  pendingSwap : Bool := false
  /-- The commit landed in a hand-over cycle: the swap waits one boundary longer (R36). -/
  swapLate : Bool := false
  /-- SAMPLE number, counted from CTRL.EN (R441). -/
  sample : Nat := 0
  /-- Zones whose entry into SAFE marks committed cells at the next hand-over edge (R446). -/
  safeDue : List Nat := []
  deriving DecidableEq, Repr

/-- An outstanding segment (R270 to R275, R330 to R334): its line time, what it carries, the lane that sent it, the cells it crosses (slot,
cell index), what its first echo showed (0 Good, 1 Mismatch), and whether it is to be settled Lost. -/
structure Seg where
  lt : Nat
  data : SegData
  lane : Option Nat := none
  /-- Codewords of it that have been sent (R332, R333). -/
  sent : Nat := 0
  cells : List (Nat × Nat) := []
  echo : Option Nat := none
  lost : Bool := false
  deriving DecidableEq, Repr

/-- An entry of the change log (R208): row and column of the beam, its effective line E, and its entry before the change. -/
structure LogEntry where
  row : Nat
  col : Nat
  e : Nat
  old : Nat
  deriving DecidableEq, Repr

/-- A run of lines of a job that were computed while its void stamp was not READY (R264). -/
structure AbsentRun where
  job : Nat
  first : Nat
  last : Nat
  deriving DecidableEq, Repr

/-- The splitter apart from the beam table and the delay ring (R190 to R220, R661). -/
structure Split where
  /-- The change log, oldest first (R208). -/
  log : List LogEntry := []
  /-- The first line time that row 0 wrote into the delay ring since CTRL.EN last became 1 (R661). -/
  enSince : Option Nat := none
  /-- The runs of lines that found no READY void stamp (R264). -/
  absent : List AbsentRun := []
  deriving DecidableEq, Repr

/-- A weave entry (R227 to R230): the line time of its edge, A, and its flags. -/
structure Weave where
  lt : Nat
  a : Int
  range : Bool
  stale : Bool
  deriving DecidableEq, Repr

/-- Placement (R221 to R250). -/
structure Place where
  /-- Weave history, latest first, at most 1,024 entries. -/
  hist : List Weave := []
  /-- Sample that the latest entry used (R249). -/
  sample : Nat := 0
  /-- X of row 0's latest frame (R249). -/
  xNow : Int := 0
  /-- FIRE values taken at the last hand-over edge, and at the one before it (R236). -/
  fire : List Nat := [0, 0, 0, 0, 0]
  firePrev : List Nat := [0, 0, 0, 0, 0]
  deriving DecidableEq, Repr

/-- The latest complete sample of a sample bus channel (R452): its value, and the line time in which its frame completed. -/
structure Sample where
  v : Nat
  age : Nat
  deriving DecidableEq, Repr

/-- States of a job slot (R63). -/
inductive SlotState where
  | empty | gathering | staged | leading | writing | draining
  deriving DecidableEq, Repr

/-- A fault that a decoder reports: code and payload offset (R93, R659). -/
structure DecFault where
  code : Nat
  off : Nat
  deriving DecidableEq, Repr

/-- A letter in a decoder (R98): its slot, its place in the order of its job, its bytes, and what the decoder holds for it. -/
structure DecJob where
  slot : Nat
  ord : Nat
  bytes : List Byte
  /-- It waits for room in the direct buffer (R130). -/
  waits : Bool := false
  /-- Decoded, and waiting for earlier letters (R98). -/
  done : Bool := false
  out : List Byte := []
  /-- A fault that the letter header shows (R659). -/
  pre : Option DecFault := none
  /-- Album frames, or pages of the glyph pool, that it holds (R117, R158, R178). -/
  frames : List Nat := []
  /-- Parts of the direct buffer that it holds: offset, bytes (R130). -/
  place : List (Nat × Nat) := []
  /-- A write of its output to the album was poisoned (R495). -/
  bad : Bool := false
  deriving DecidableEq, Repr

/-- A stamp of a slot's table (R114 to R120). `st`: 1 EXPANDING, 2 READY, 3 BAD. -/
structure Stamp where
  num : Nat
  st : Nat
  w : Nat
  h : Nat
  frames : List Nat
  check : Nat
  deriving DecidableEq, Repr

/-- A posting in flight, in the order of application (R121 to R126); `h` is the height of its stamp when it was applied, 1 where absent. -/
structure Posting where
  stamp : Nat
  layer : Nat
  op : Nat
  column : Int
  line : Nat
  count : Nat
  step : Nat
  h : Nat
  deriving DecidableEq, Repr

/-- A DIRECT letter whose output lies in the direct buffer (R128 to R130), at the offsets and lengths of `place`; its rows start at byte 16. -/
structure Direct where
  layer : Nat
  op : Nat
  line : Nat
  column : Nat
  width : Nat
  lines : Nat
  place : List (Nat × Nat)
  deriving DecidableEq, Repr

/-- A glyph set (R156 to R158): its payload's pages in the glyph pool, and its length. -/
structure GlyphSet where
  num : Nat
  pages : List Nat
  len : Nat
  deriving DecidableEq, Repr

/-- A frank field (R159): the 56 bytes of its FRANK_DEF, its counter, and a reload that no assignment has taken yet (R165, R166). -/
structure Field where
  num : Nat
  defn : List Byte
  counter : Nat
  reload : Option Nat := none
  deriving DecidableEq, Repr

/-- An enclosure bound to a cell (R176 to R180): its frames, CHECK of its letter, and whether it is BAD (R495). -/
structure Enclosure where
  field : Nat
  cell : Nat
  w : Nat
  h : Nat
  frames : List Nat
  check : Nat
  bad : Bool := false
  deriving DecidableEq, Repr

/-- A value assigned to a cell of the repeat being composed, which its field draws there (R163, R170): field, cell, value. -/
structure Value where
  field : Nat
  cell : Nat
  v : Nat
  deriving DecidableEq, Repr

/-- What a shared cell has from the peer of one side (R244 to R246): its local and its combined verdict, 0 WRITE or 1 VOID, and whether
R246 has compared them. -/
structure ShareSide where
  localV : Option Nat := none
  combV : Option Nat := none
  settled : Bool := false
  deriving DecidableEq, Repr

/-- An entry of a cell table (R251 to R259): `st` is the state of R253. -/
structure Cell where
  idx : Nat
  st : Nat
  /-- Repeat and cell position. -/
  rep : Nat := 0
  pos : Nat := 0
  /-- Kept cause, and later causes written (R254). -/
  reason : Nat := 0
  later : List Nat := []
  /-- Frank seal (R183). -/
  sealVal : Option Nat := none
  /-- A countersign is applied or held; what the held one carries: its seal and its VOID flag (R259). -/
  signed : Bool := false
  heldSeal : Nat := 0
  heldVoid : Bool := false
  /-- The splitter has taken its first line, or its combined verdict is formed (R255). -/
  committed : Bool := false
  /-- Its decision edge has been acted on (R257). -/
  decided : Bool := false
  /-- Its position is void on its lines to come (R261, R262). -/
  masked : Bool := false
  /-- A shared cell's local and combined verdict: 0 WRITE, 1 VOID (R244). -/
  localV : Option Nat := none
  combV : Option Nat := none
  share : List ShareSide := List.replicate 2 {}
  deriving DecidableEq, Repr

/-- A line range that a faulted DIRECT letter carries (R97). -/
structure LineRange where
  first : Nat
  count : Nat
  deriving DecidableEq, Repr

/-- A job slot: its mailbag (R54 to R56), its job (R63 to R76) and everything that goes when the slot returns to EMPTY. -/
structure Slot where
  st : SlotState := .empty
  job : Nat := 0
  /-- E (R54). -/
  nextSeq : Nat := 0
  held : List (List Byte) := []
  gap : Bool := false
  /-- Letters released and not taken by a decoder, with their order, and the order of the next. -/
  released : List (Nat × List Byte) := []
  nextOrd : Nat := 0
  /-- The 800 bytes of the JOB_OPEN (R76). -/
  params : List Byte := []
  supply : Nat := 0
  ends : Option Nat := none
  /-- Lines planned, and lines composed (R69, R150). -/
  planned : Nat := 0
  composed : Nat := 0
  /-- Line time in which composition takes line 0 (R72, R74). -/
  take : Option Nat := none
  damage : Nat := 2 ^ 48 - 1
  starved : List LineRange := []
  stamps : List Stamp := []
  postings : List Posting := []
  directs : List Direct := []
  glyphs : List GlyphSet := []
  fields : List Field := []
  enclosures : List Enclosure := []
  values : List Value := []
  /-- Field and cell of every ENCLOSURE letter that has become visible (R179). -/
  seen : List (Nat × Nat) := []
  /-- Repeats whose values and cells are assigned (R163). -/
  assigned : Nat := 0
  /-- The cell table, one entry for each used index mod 4,096 (R251), its base, and the next cell the planner assigns (R252). -/
  cells : List Cell := []
  base : Nat := 0
  nextCell : Nat := 0
  /-- Cell positions that R243 voids in every repeat. -/
  unpaired : List Nat := []
  deriving DecidableEq, Repr

/-- A composed or planned line's record (R147); `num` counts the lines composed before it, `cause` is the reason of R278 that made it void,
`taken` says that the splitter has it. -/
structure LineRec where
  num : Nat := 0
  job : Nat := 0
  line : Nat := 0
  st : Nat := 0
  slot : Nat := 0
  base : Nat := 0
  prov : Nat := 0
  void : Nat := 0
  cause : Nat := 0
  taken : Bool := false
  /-- X(L) of R223, and the flags of the weave entry that it uses. -/
  x : Int := 0
  wRange : Bool := false
  wStale : Bool := false
  /-- TABLE_MISSING has been recorded for the line (R205). -/
  missing : Bool := false
  deriving DecidableEq, Repr

/-- A line planned for the coming line time (R150): the row 0 line time at which row 0 writes it, its record, its levels, and the cause of
R658 that the planner found (0 none, 1 to 4 its precedence, 5 a failed read of R495 or R518) with the mask of R151. -/
structure Plan where
  lt : Nat
  rcd : LineRec
  cause : Nat := 0
  deriving DecidableEq, Repr

/-- A mismatch that a vote is to judge (R140): its tile slot and the number of the line composed then. -/
structure Vote where
  slot : Nat
  num : Nat
  deriving DecidableEq, Repr

/-- A takeover of a tile slot (R142): the line time of its hand-over. -/
structure TileSwap where
  slot : Nat
  phys : Nat
  lt : Nat
  deriving DecidableEq, Repr

/-- Composition (R136 to R150). -/
structure Compose where
  /-- LEAD of the job that composition took last (R146). -/
  lead : Option Nat := none
  /-- Job that composition took last, and the slot it is on; none makes idle lines (R72, R73). -/
  last : Option Nat := none
  on : Option Nat := none
  plan : Option Plan := none
  /-- Line records of the lead ring and the record ring, by row 0 line time (R147, R192). -/
  recs : List (Nat × LineRec) := []
  /-- WEB.RATE at the line event of the line time that runs (R310). -/
  rate : Nat := 0
  /-- Lines composed since reset (R139). -/
  count : Nat := 0
  failed : List Nat := []
  mismatches : List (Nat × Nat) := []
  /-- By tile slot, the number of the first line since it last passed a comparison (R141). -/
  since : List (Nat × Nat) := []
  /-- Composition runs with no patrol tile (R143). -/
  unchecked : Bool := false
  votes : List Vote := []
  swaps : List TileSwap := []
  deriving DecidableEq, Repr

/-- A countersign taken in a hand-over cycle (R258): its bytes, origin (0 ring, 1 batch, 2 peer), the letter's job, the line time in which
it was taken, and whether the edge of that cycle is still to come. -/
structure CsTaken where
  bytes : List Byte
  origin : Nat
  letterJob : Nat
  lt : Nat
  waits : Bool := true
  deriving DecidableEq, Repr

/-- A record of the REJECT queue (R280): type, reason, job and cell. -/
structure Reject where
  typ : Nat
  reason : Nat
  job : Nat
  cell : Nat
  deriving DecidableEq, Repr

/-- The seal unit apart from the cell tables (R258, R275, R279 to R283). `ran` holds the last line time of each open run, by outcome
(1 Mismatch, 2 Missing, 3 Lost, 0 any of them). -/
structure SealUnit where
  deferred : List CsTaken := []
  rejects : List Reject := []
  /-- REJECT_CFG as it acts: a write takes effect at the next record boundary (R284). -/
  cfg : Nat := 0x00310064
  dropped : Nat := 0
  ran : List (Nat × Nat) := []
  deriving DecidableEq, Repr

/-- A write of MAIL.GO or ABORT that waits for its hand-over edge (R74, R75); `late` waits one edge longer (R36). -/
structure SlotCmd where
  slot : Nat
  abort : Bool
  late : Bool
  deriving DecidableEq, Repr

/-- What the mailbag region holds of a letter (R484): its slot and SEQ, its bytes or its decoded output, their place in the region as offsets and
lengths, and whether a write of them was poisoned (R495). -/
structure BagEntry where
  slot : Nat
  seq : Nat
  out : Bool
  place : List (Nat × Nat)
  bad : Bool
  deriving DecidableEq, Repr

/-- The mailbag apart from its slots (R46, R56, R98). -/
structure Mailbag where
  /-- Highest job number given a slot since reset (R56). -/
  highest : Option Nat := none
  cmds : List SlotCmd := []
  halted : List Nat := []
  haltRing : Nat := 0
  decs : List (Option DecJob) := List.replicate 8 none
  /-- What lies in the mailbag region; entries of letters that are gone no longer hold it. -/
  bag : List BagEntry := []
  /-- Output bytes of each decoder beyond whole KiB. -/
  decBytes : List Nat := List.replicate 8 0
  deriving DecidableEq, Repr

/-- A compressor job that runs (R101): its client (1 ledger, 2 export, 3 ring, 4 register), its request, the source bytes that it encodes
(R102, R108), the ring whose descriptor carried it (none also once that descriptor is abandoned, R537), and whether a read of its source failed. -/
structure CmpJob where
  client : Nat
  req : CmpReq
  data : List Byte := []
  ring : Option Nat := none
  bad : Bool := false
  deriving DecidableEq, Repr

/-- A compressor (R101 to R112): the job that runs, and a register job that waits. -/
structure CmpUnit where
  run : Option CmpJob := none
  waits : Bool := false
  bytesIn : Nat := 0
  bytesOut : Nat := 0
  deriving DecidableEq, Repr

/-- The postcard taken last (R303): SEQ, TIME in 2^-16 ns, POS, VEL and ACC. -/
structure Card where
  seq : Nat
  time : Nat
  pos : Nat
  vel : Int
  acc : Int
  deriving DecidableEq, Repr

/-- Web following (R287 to R319), apart from LINE_TIME; and the levels of PRESS_RUN and SPLICE_N. -/
structure Web where
  /-- pg in 2^-48 line, and hw (R296). -/
  pg : Int := 0
  hw : Nat := 0
  /-- Fabric clocks (ns) since the last line event, counted to 2,200 (R289). -/
  gap : Nat := 2200
  /-- v and c, 2^-48 line per ns and per fabric clock. -/
  v : Int := 0
  c : Int := 0
  /-- ALONG_ACT, 1/256 line (R301). -/
  along : Int := 0
  /-- The latest capture since the last loop sample. -/
  capture : Option Int := none
  /-- Levels of ENC_A and ENC_B, the count since CTRL.EN, the direction of the last count, and the count at the last index edge. -/
  encA : Bool := false
  encB : Bool := false
  count : Int := 0
  fwd : Bool := true
  zAt : Option Int := none
  /-- A run of ignored trigger edges is open, and has raised its timeline fault (R302). -/
  trigRun : Bool := false
  trigFault : Bool := false
  /-- Conditions of raised timeline faults that last (R660): codes 2 to 7 of R315, and 9 for a low SPLICE_N. -/
  lasting : List Nat := []
  fault : Bool := false
  stopped : Bool := false
  reverse : Bool := false
  coasting : Bool := false
  card : Option Card := none
  /-- The next postcard is taken whatever its SEQ (R305). -/
  cardFirst : Bool := true
  /-- A timeline fault was raised since the last postcard sent (R303). -/
  owed : Bool := false
  press : Bool := false
  spliceN : Bool := true
  deriving DecidableEq, Repr

/-- A limit input (R470, R472): its level after the synchroniser, the ns since it last changed, counted to 255 us, and the ns left of its open
window. -/
structure LimitIn where
  level : Bool := false
  age : Nat := 255000
  win : Nat := 0
  deriving DecidableEq, Repr

/-- A head lift axis (R456 to R480). `st`: 0 IDLE, 1 MOVING, 2 HOMING, 3 STOPPING, 4 SPLICE. -/
structure Axis where
  st : Nat := 0
  pos : Int := 0
  homed : Bool := false
  loLatch : Bool := false
  hiLatch : Bool := false
  lo : LimitIn := {}
  hi : LimitIn := {}
  /-- Level of DIR before DIR_INV: high moves up; and DIR_INV as it was taken (R456, R463, R475). -/
  dir : Bool := false
  inv : Bool := false
  /-- DIR stands at the rest level of the splice axis (R475). -/
  rest : Bool := false
  /-- CFG as it stays in force, where a write during an action has changed it since (R463). -/
  cfg : Option Nat := none
  /-- HOME_DUTY as it was taken (R459, R463). -/
  duty : Nat := 8
  pulse : Nat := 10
  interval : Nat := 0
  /-- The action that runs: OP of R460 (3 a splice move), its steps, those issued, c and n of R465, and what R463 took. -/
  op : Nat := 0
  dist : Nat := 0
  issued : Nat := 0
  c : Nat := 0
  n : Nat := 0
  recur : Bool := false
  c0 : Nat := 0
  cmin : Nat := 0
  accel : Nat := 0
  /-- A splice move follows the deceleration (R473). -/
  thenSplice : Bool := false
  result : Nat := 0
  deriving DecidableEq, Repr

/-- The replay (R602, R603): zones that the records fed so far leave in HOLD or SAFE. -/
structure Replay where
  zones : List Nat := []
  /-- Records that the buffer had when the last edge was fed (R603). -/
  seen : Nat := 0
  deriving DecidableEq, Repr

structure State where
  /-- Commands that wait, first in, first out. -/
  pending : List Instr := []
  /-- Programmed or staged register values and RC counters, by BAR0 byte offset: what a read returns (R27, R30). -/
  regs : List (Nat × Word) := []
  /-- Active copies of grouped and shadowed registers (R30, R35). -/
  act : List (Nat × Word) := []
  pend : List Pend := []
  /-- Shadowed registers whose last write landed in a hand-over cycle, with the value that the coming hand-over takes (R36). -/
  heldBack : List (Nat × Word) := []
  /-- Device memory (R481, R510): HBM at its device addresses, below 0xC_0000_0000, each byte by the bits in which it differs from what an
  unlisted address reads as (`hbmDiff`), and the bytes of the 68 physical banks of scratch above, bank after bank (`cellKey`). -/
  mem : List Host.Cell := []
  irq : Irq := {}
  led : Ledger := {}
  replay : Replay := {}
  /-- WEB.LINE_TIME (R582). -/
  lineTime : Nat := 0
  time : TimeUnit := {}
  eth : Eth := {}
  lanes : Lanes := {}
  jl : JLink := {}
  peers : Peers := {}
  slots : List Slot := List.replicate 4 {}
  mail : Mailbag := {}
  comp : Compose := {}
  sealU : SealUnit := {}
  cmp : List CmpUnit := List.replicate 2 {}
  hbm : Hbm := {}
  scr : Scratch := {}
  vault : Vault := {}
  dma : Dma := {}
  host : HostPort := {}
  chk : Chk := {}
  loops : Loops := {}
  /-- Outstanding segments, oldest first (R272). -/
  segs : List Seg := []
  split : Split := {}
  place : Place := {}
  samples : List (Option Sample) := List.replicate 16 none
  /-- Sample bus channels whose last slot had no result (R452). -/
  sampleRun : List Nat := []
  web : Web := {}
  axes : List Axis := List.replicate 4 {}
  /-- HEAD_SAFE (R478). -/
  headSafe : Bool := false
  life : Life := {}
  power : Power := {}
  tap : Tap := {}
  /-- Uses of free values so far (log 3). -/
  free : Nat := 0
  out : List Out := []
  deriving DecidableEq, Repr

def State.reset : State := {}

end Sys2Proof.Machine
end

