-- ==== Sys2Proof/Machine/Ops.lean ====
section
/-! DEFINITION. The named operations over registers, memory, interrupts and the ledger's queues. -/

namespace Sys2Proof.Machine

/-! ### Registers -/

/-- The programmed, staged or counted value of the register at a BAR0 byte offset. -/
def State.reg (s : State) (a : Nat) : Nat := (sparseGet s.regs a (resetOf a)).toNat

/-- The active copy of a grouped or shadowed register (R30, R35). -/
def State.active (s : State) (a : Nat) : Nat := (sparseGet s.act a (resetOf a)).toNat

/-- The register at a byte offset takes a value. -/
def State.setReg (s : State) (a v : Nat) : State :=
  { s with regs := sparseSet s.regs a (BitVec.ofNat 32 v) (resetOf a) }

/-- The active copy takes a value. -/
def State.setActive (s : State) (a v : Nat) : State :=
  { s with act := sparseSet s.act a (BitVec.ofNat 32 v) (resetOf a) }

/-- A saturating counter rises by n (R28 and the RC counters of every page). -/
def State.bump (s : State) (a n : Nat) : State := s.setReg a (min (s.reg a + n) 0xFFFFFFFF)

/-- Bits of a register set. -/
def State.setBits (s : State) (a m : Nat) : State := s.setReg a (s.reg a ||| m)

/-- Bit `i` of a register set or cleared. -/
def putBit (v i : Nat) (b : Bool) : Nat := if bit v i == b then v else if b then v + 2 ^ i else v - 2 ^ i

/-- The field [hi:lo] of a number replaced. -/
def putField (v hi lo x : Nat) : Nat := v - bits v hi lo * 2 ^ lo + x % 2 ^ (hi + 1 - lo) * 2 ^ lo

/-- CTRL.EN of a page (R28). -/
def State.enabled (s : State) (p : Nat) : Bool := bit (s.reg (CTRL p)) 0

/-- A 64-bit value held in two registers, LO first. -/
def State.reg64 (s : State) (lo hi : Nat) : Nat := s.reg lo + s.reg hi * 2 ^ 32

/-- A 64-bit value held in the active copies of two registers. -/
def State.active64 (s : State) (lo hi : Nat) : Nat := s.active lo + s.active hi * 2 ^ 32

/-- The registers of a page, and its commits, at their reset values (R28, R618, R619). -/
def State.resetPageRegs (s : State) (p : Nat) : State :=
  let out (a : Nat) : Bool := pageOf a != some p
  { s with
    regs := s.regs.filter fun r => out r.1
    act := s.act.filter fun r => out r.1
    heldBack := s.heldBack.filter fun r => out r.1
    pend := s.pend.filter fun q => q.page != p }

/-! ### Free values -/

/-- A fresh free value, and the state that has used it. -/
def State.fresh (s : State) : Nat × State := ((Config.freeWord s.free).toNat, { s with free := s.free + 1 })

/-- `n` fresh free bytes, and the state that has used them. -/
def State.freshBytes (s : State) (n : Nat) : List Byte × State :=
  ((List.range n).map (Config.freeByte s.free), { s with free := s.free + 1 })

/-! ### Memory -/

/-- First address of scratch (R511). -/
def scratchBase : Nat := 0xC00000000
/-- Bytes of scratch that have an address (R511). -/
def scratchSize : Nat := 0x2000000

/-- Bytes of a physical bank of scratch (R510). -/
def bankSize : Nat := 0x80000

/-- Logical bank of a scratch byte, its word there, and its byte there (R511). -/
def scrBank (a : Nat) : Nat := a / 256 % 64
def scrWord (a : Nat) : Nat := a / 16384 * 32 + a % 256 / 8
def scrByte (a : Nat) : Nat := a / 16384 * 256 + a % 256

/-- Scratch address of a word of a logical bank (R511). -/
def scrAddr (b w : Nat) : Nat := w / 32 * 16384 + b * 256 + w % 32 * 8

/-- Where `State.mem` keeps byte `o` of physical bank `p`: above HBM, bank after bank (R510). -/
def cellKey (p o : Nat) : Nat := scratchBase + p * bankSize + o

/-- The retirement that runs, where it copies logical bank `b` (R520). -/
def Scratch.retiringOf (c : Scratch) (b : Nat) : Option Retirement := c.retiring.filter fun r => r.bank == b

/-- The physical bank that serves a read of a word of a logical bank (R511, R520). -/
def Scratch.readBank (c : Scratch) (b w : Nat) : Nat :=
  match c.retiringOf b with
  | some r => if w < c.copyPos then r.reserve else r.old
  | none => c.map.getD b 0

/-- The physical banks that take a write of a logical bank (R511, R520). -/
def Scratch.writeBanks (c : Scratch) (b : Nat) : List Nat :=
  match c.retiringOf b with
  | some r => [r.old, r.reserve]
  | none => [c.map.getD b 0]

/-- The parts of `n` scratch bytes at `a` that each lie in one unit of 256 bytes, so in one bank (R511). -/
def unitParts : Nat → Nat → Nat → List (Nat × Nat)
  | 0, _, _ => []
  | f + 1, a, n =>
    let k := min n (256 - a % 256)
    if n = 0 then [] else (a, k) :: unitParts f (a + k) (n - k)

/-- `n` scratch bytes at `a` within one unit, from the banks that serve them (R520). -/
def Scratch.readPart (c : Scratch) (m : List Host.Cell) (a n : Nat) : List Byte :=
  let o := scrByte a
  match c.retiringOf (scrBank a) with
  | some r =>
    let k := min n (8 * c.copyPos - o)
    memRead m (cellKey r.reserve o) k ++ memRead m (cellKey r.old (o + k)) (n - k)
  | none => memRead m (cellKey (c.map.getD (scrBank a) 0) o) n

/-- `n` scratch bytes at `a`; beyond the last one they read 0. -/
def Scratch.read (c : Scratch) (m : List Host.Cell) (a n : Nat) : List Byte :=
  let k := min n (scratchSize - a)
  (unitParts (k / 256 + 2) a k).flatMap (fun p => c.readPart m p.1 p.2) ++ List.replicate (n - k) 0

/-- Bytes stored at scratch address `a` over parts of it, in every bank that takes them (R520). -/
def Scratch.writeParts (c : Scratch) (m : List Host.Cell) : List (Nat × Nat) → List Byte → List Host.Cell
  | [], _ => m
  | (a, n) :: ps, bs =>
    c.writeParts ((c.writeBanks (scrBank a)).foldl (fun m p => memWrite m (cellKey p (scrByte a)) (bs.take n)) m) ps (bs.drop n)

/-- Bytes stored at scratch address `a`; those beyond the last one go nowhere. -/
def Scratch.write (c : Scratch) (m : List Host.Cell) (a : Nat) (bs : List Byte) : List Host.Cell :=
  let k := min bs.length (scratchSize - a)
  c.writeParts m (unitParts (k / 256 + 2) a k) bs

/-- Scratch address of a word of a physical bank, where `f b w` gives the banks that hold word `w` of logical bank `b`. -/
def badAddr (f : Nat → Nat → List Nat) (q : Nat) : Option Nat :=
  ((List.range 64).find? fun b => (f b (q % 65536)).contains (q / 65536)).map fun b => scrAddr b (q % 65536)

/-- A store of `n` bytes at a device address gives every word that it holds whole fresh check bits (R512, R520). -/
def Scratch.rewritten (c : Scratch) (a n : Nat) : Scratch :=
  { c with bad := c.bad.filter fun q => match badAddr (fun b _ => c.writeBanks b) q with
      | none => true
      | some x => !(decide (a ≤ scratchBase + x) && decide (scratchBase + x + 8 ≤ a + n)) }

/-- Bytes of HBM at `a` as `State.mem` keeps them, and back: the bits in which they differ from what an address that it does not list reads as.
That is 0 (log 4), and after a reset that leaves the contents of HBM undefined a free value of that reset (R618, log 3). -/
def hbmDiff : Option Nat → Nat → List Byte → List Byte
  | none, _, bs => bs
  | some e, a, bs => bs.mapIdx fun i b => b ^^^ Config.freeByte e (a + i)

/-- `n` bytes at a device address. -/
def State.readMem (s : State) (a n : Nat) : List Byte :=
  let k := min n (scratchBase - a)
  hbmDiff s.hbm.era a (memRead s.mem a k) ++ (if n = k then [] else s.scr.read s.mem (a + k - scratchBase) (n - k))

/-- One byte at a device address. -/
def State.devByte (s : State) (a : Nat) : Byte :=
  if a < scratchBase then (hbmDiff s.hbm.era a [memByte s.mem a]).headD 0
  else if a < scratchBase + scratchSize then
    memByte s.mem (cellKey (s.scr.readBank (scrBank (a - scratchBase)) (scrWord (a - scratchBase))) (scrByte (a - scratchBase)))
  else 0

/-- The memory with bytes stored at a device address. -/
def State.stored (s : State) (a : Nat) (bs : List Byte) : List Host.Cell :=
  let k := min bs.length (scratchBase - a)
  let m := if k = 0 then s.mem else memWrite s.mem a (hbmDiff s.hbm.era a (bs.take k))
  if bs.length = k then m else s.scr.write m (a + k - scratchBase) (bs.drop k)

/-- Bytes stored at a device address. -/
def State.writeMem (s : State) (a : Nat) (bs : List Byte) : State :=
  { s with mem := s.stored a bs, scr := s.scr.rewritten a bs.length }

/-- Little-endian number of n bytes at a device address (R8). -/
def State.readNat (s : State) (a n : Nat) : Nat := leNat (s.readMem a n)

/-! ### What leaves the block -/

def State.emit (s : State) (o : Out) : State := { s with out := s.out ++ [o] }

/-- The parts of n bytes at host address `a`, none above `m` bytes and none across a 4 KiB boundary (R533, R551); the first argument bounds
their number. -/
def hostParts (m : Nat) : Nat → Nat → Nat → List (Nat × Nat)
  | 0, _, _ => []
  | f + 1, a, n =>
    let k := min (min n (max 1 m)) (4096 - a % 4096)
    if n = 0 then [] else (a, k) :: hostParts m f (a + k) (n - k)

/-- Those parts. -/
def hostCuts (m a n : Nat) : List (Nat × Nat) := hostParts m (n / max 1 m + n / 4096 + 2) a n

/-- Bytes written to host memory in posted writes of at most Max_Payload_Size (R533). -/
def State.hostWrites (s : State) (a : Nat) (bs : List Byte) : State :=
  { s with out := s.out ++ (hostCuts s.host.maxPayload a bs.length).map fun p => .hostWrite p.1 ((bs.drop (p.1 - a)).take p.2) }

/-- Bytes of host memory read in requests of at most Max_Read_Request_Size (R533). -/
def State.hostReads (s : State) (a n : Nat) : State :=
  { s with out := s.out ++ (hostCuts s.host.maxRead a n).map fun p => .hostRead p.1 p.2 }

/-! ### Interrupts (R40, R41) -/

/-- A cause bit of a page's IRQ_RAW set (R28). -/
def State.raise (s : State) (p c : Nat) : State := s.setBits (IRQ_RAW p) (2 ^ c)

/-- The level of a source: the OR of the bits of IRQ_STAT of its page (R40). -/
def State.levelOf (s : State) (src : Nat) : Bool := s.reg (IRQ_RAW src) &&& s.reg (IRQ_MASK src) != 0

/-- The message of a vector, or its pending bit while the vector is masked (R41). -/
def State.sendVector (s : State) (v : Nat) : State :=
  let e := s.irq.table.getD v {}
  if e.masked then { s with irq := { s.irq with pba := if s.irq.pba.contains v then s.irq.pba else s.irq.pba ++ [v] } }
  else s.emit (.msix v (e.addrLo.toNat + e.addrHi.toNat * 2 ^ 32) e.data)

/-- A source asks for its message: it is held back while the source is in holdoff, and opens a holdoff where HOLDOFF is not 0 (R41). A
rewritten HOLDOFF counts from the next message on (DESIGN CHOICE, log 15). -/
def State.notify (s : State) (src : Nat) : State :=
  let r := s.reg (CHIP.IRQ_ROUTE src)
  match keyGet s.irq.holdoff src with
  | some _ => { s with irq := { s.irq with holdoff := keySet s.irq.holdoff src true } }
  | none =>
    let s := s.sendVector (bits r 5 0)
    if bits r 27 16 = 0 then s else { s with irq := { s.irq with holdoff := keySet s.irq.holdoff src false } }

/-- The levels of all sources, in order. -/
def State.levels (s : State) : List Bool := (List.range 60).map s.levelOf

/-- Sources that are at level 1 in `new` and not in `old`. -/
def risen (old new : List Bool) : List Nat := (List.range 60).filter fun i => new.getD i false && !(old.getD i false)

/-- The level of each interrupt source follows its page, and a source that rises sends its message (R41). -/
def State.followLevels (s : State) : State :=
  let lv := s.levels
  (risen s.irq.level lv).foldl State.notify { s with irq := { s.irq with level := lv } }

/-- The end of a command: the levels of the interrupt sources follow their pages (R41), and the queue of waiting commands is the one the
command found. -/
def settled (s t : State) : State := ({ t with pending := s.pending } : State).followLevels

/-- The end of a command that needs the main rails: in OFF it has no effect (R607). -/
def settle (s t : State) : State := if s.power.st = 4 then s else settled s t

/-! ### Errors and records -/

/-- R29: ERR_CODE of a page latches an error with the SEQ of its record, or counts it in MORE. -/
def State.latchErr (s : State) (p code seq : Nat) : State :=
  let e := s.reg (ERR_CODE p)
  if bits e 15 0 = 0 then ((s.setReg (ERR_CODE p) (e + code)).setReg (ERR_SEQ p) seq).raise p 0
  else s.setReg (ERR_CODE p) (putField e 31 16 (min (bits e 31 16 + 1) 0xFFFF))

/-- Records waiting at a source. -/
def State.waitingAt (s : State) (src : Nat) : List Rec := (keyGet s.led.queues src).getD []

/-- R584: a dropped record is counted against its source, and latches its code now (R29). -/
def State.dropRec (s : State) (src : Nat) (r : Rec) : State :=
  let s := s.bump LEDGER.HELD_LOST 1
  let s := { s with led := { s.led with dropped := keySet s.led.dropped src ((keyGet s.led.dropped src).getD 0 + 1) } }
  match r.latch with
  | none => s
  | some p => s.latchErr p r.code s.led.seq

/-- R584: a record waits at its source for the writer, or is dropped where 16 wait. -/
def State.post (s : State) (r : Rec) : State :=
  if (s.waitingAt r.src).length < 16 then
    { s with led := { s.led with queues := keySet s.led.queues r.src (s.waitingAt r.src ++ [r]) } }
  else s.dropRec r.src r

/-- An event record of page p (R580). -/
def State.event (s : State) (p code : Nat) (flds : List Fld) : State := s.post { src := p, code := code, flds := flds }

/-- An error record of page p (R29). -/
def State.error (s : State) (p code : Nat) (flds : List Fld) : State :=
  s.post { src := p, code := code, flds := flds, latch := some p }

/-- The open tally of a cause (R586). -/
def State.tally? (s : State) (code key : Nat) : Option Tally := s.led.tallies.find? fun t => t.code == code && t.key == key

/-- A tally has stayed open for SPLIT_LINES line times (R588). -/
def State.tallyOver (s : State) (t : Tally) : Bool :=
  let n := bits (s.reg LEDGER.TALLY_CFG) 23 0
  n != 0 && decide (n ≤ t.age)

/-- The first report of a cause opens its tally and is written in full (R586). `latch` is the page whose ERR_CODE latches it, `irq` the cause
bit raised with the opening record (R589). -/
def State.openTally (s : State) (p code key n : Nat) (flds extra : List Fld) (latch : Option Nat) (irq : Option Nat)
    (byLine : Bool) : State :=
  let id := s.led.tallyNext
  let t : Tally := { id := id, src := p, code := code, key := key, count := min n 0xFFFFFFFF, first := s.lineTime, last := s.lineTime,
                     extra := extra, byLine := byLine }
  let s := { s with led := { s.led with tallies := s.led.tallies ++ [t], tallyNext := id + 1 } }
  let s := s.post { src := p, code := code, flds := flds, latch := latch, opens := some id }
  match irq with
  | none => s
  | some c => s.raise p c

/-- R587: an open tally closes and its closing record waits at its source. -/
def State.closeTally (s : State) (t : Tally) : State :=
  let s := { s with led := { s.led with tallies := s.led.tallies.filter fun u => u.id != t.id } }
  s.post { src := t.src, code := t.code + 0x8000, flds := [.f 4 t.count, .f 6 t.first, .f 6 t.last] ++ t.extra, closes := some t.id }

/-- A report of a cause (R586, R587): the first opens the tally, later ones are counted. A tally that R588 closes at this edge takes none: it
closes, and the report opens a new one. -/
def State.report (s : State) (p code key n : Nat) (flds extra : List Fld) (latch : Option Nat) (irq : Option Nat)
    (byLine : Bool) : State :=
  match s.tally? code key with
  | some t =>
    if s.tallyOver t then (s.closeTally t).openTally p code key n flds extra latch irq byLine
    else
      let t' := { t with count := min (t.count + n) 0xFFFFFFFF, last := s.lineTime, extra := extra }
      { s with led := { s.led with tallies := s.led.tallies.map fun u => if u.id == t.id then t' else u } }
  | none => s.openTally p code key n flds extra latch irq byLine

/-- The tally of a cause closes where one is open. -/
def State.closeCause (s : State) (code key : Nat) : State :=
  match s.tally? code key with
  | none => s
  | some t => s.closeTally t

/-- Every open tally that `p` chooses closes. -/
def State.closeTallies (s : State) (p : Tally → Bool) : State := (s.led.tallies.filter p).foldl State.closeTally s

/-- R582: a record of a change of the active value of a covered register. Pages 12 to 17, RW registers and CTRL, without the view
selectors, and without the changes that BEAM_WRITE or RELOAD records carry. -/
def regWriteCovered (a : Nat) : Bool :=
  match pageOf a with
  | none => false
  | some p =>
    12 ≤ p && p ≤ 17 &&
    (a == CTRL p ||
      (0x100 ≤ a % 0x1000 && ((regDef? a).map fun d => decide (d.1.acc = .rw)) == some true &&
        !([FRANK.VIEW_SEL, SPLIT.LIVE_SEL, SPLIT.TABLE_SEL, SEAL.CELL_SEL, SEAL.CELL_IDX, SPLIT.BEAM_SEL, SPLIT.BEAM_COUNT, SPLIT.BEAM_DATA,
           SPLIT.BEAM_WMASK, FRANK.RELOAD_SEL, FRANK.RELOAD_LO, FRANK.RELOAD_HI].contains a)))

/-- The composition slot whose tile a register of the tile map names. -/
def mapSlot? (a : Nat) : Option Nat := if TILE.MAP 0 ≤ a ∧ a ≤ TILE.MAP 31 then some ((a - TILE.MAP 0) / 4) else none

/-- R582: the REG_WRITE record of a register that takes the value `v`, effective at line time `u`. A change of the tile map has a TILE_MAP
record instead (R149). -/
def State.regWriteRec (s : State) (a v u : Nat) : State :=
  if (mapSlot? a).isSome then s.event pTILE V.TILE_MAP [.f 1 ((mapSlot? a).getD 0), .f 1 v, .lt u]
  else if regWriteCovered a then
    s.event ((pageOf a).getD 0) V.REG_WRITE [.f 1 ((pageOf a).getD 0), .f 2 (a % 0x1000), .f 4 v, .lt u]
  else s

/-- The active copy of a register takes a value at hand over, effective at line time `u`; a change is recorded (R582). -/
def State.activate (s : State) (u : Nat) (r : Nat × Word) : State :=
  if s.active r.1 = r.2.toNat then s else (s.setActive r.1 r.2.toNat).regWriteRec r.1 r.2.toNat u

/-! ### Hand-over (R33 to R37) -/

/-- The first line time whose hand-over edge is at or after now: the next one. -/
def State.nextLine (s : State) : Nat := (s.lineTime + 1) % 2 ^ 48

/-- Effective line time of what hands over at event `e` (R582): at the start of a row 0 line time that line time, else the next. -/
def State.handLine (s : State) (e : HandOver) : Nat := if e = .line then s.lineTime else s.nextLine

/-- The shadowed registers of no group take their programmed values, or the value kept back by a late write, at event `e`. -/
def State.takeShadows (s : State) (e : HandOver) : State :=
  let rs := shadowRegs e
  let s := rs.foldl (fun s a => s.activate (s.handLine e) (a, (keyGet s.heldBack a).getD (BitVec.ofNat 32 (s.reg a)))) s
  { s with heldBack := s.heldBack.filter fun p => !rs.contains p.1 }

/-- The event at which a group hands over. -/
def groupEvent (p g : Nat) : HandOver :=
  match (groupRegs p g).head? with
  | none => .none
  | some a => eventOf a

/-- The pending sets of event `e` become active; a late one waits for the next hand-over (R36). -/
def State.takePending (s : State) (e : HandOver) : State :=
  let due := s.pend.filter fun q => groupEvent q.page q.group == e && !q.late
  let s := { s with pend := (s.pend.filter fun q => !(groupEvent q.page q.group == e && !q.late)).map fun q =>
                      if groupEvent q.page q.group == e then { q with late := false } else q }
  due.foldl (fun s q => q.vals.foldl (fun s r => s.activate (s.handLine e) r) s) s

/-- R31: a commit is refused. -/
def State.commitRejected (s : State) (p : Nat) : State := (s.setBits (COMMIT p) 0x100).error p E.COMMIT_REJECT []

/-- R31: the group named by a COMMIT write, and the end of an earlier refusal. -/
def State.commitAccepted (s : State) (p : Nat) : State := s.setReg (COMMIT p) (putBit (s.reg (COMMIT p)) 8 false)

/-- The staged values of a commit group. -/
def State.staged (s : State) (p g : Nat) : List (Nat × Word) := (groupRegs p g).map fun a => (a, BitVec.ofNat 32 (s.reg a))

/-- R34: a group that is not shadowed hands over at once. -/
def State.commitNow (s : State) (p g : Nat) : State :=
  (s.staged p g).foldl (fun s r => s.activate s.nextLine r) (s.commitAccepted p)

/-- R36: LATE of a page. -/
def State.setLate (s : State) (p : Nat) : State := (s.setBits (STATUS p) 2).raise p 1

/-- The value of a register that the coming hand-over takes, because later writes landed in its hand-over cycle. -/
def State.holdBack (s : State) (a old : Nat) : State :=
  { s with heldBack := if (keyGet s.heldBack a).isSome then s.heldBack else keySet s.heldBack a (BitVec.ofNat 32 old) }

/-- R36: a write of a shadowed register of no group that lands in the hand-over cycle leaves the old value to the coming hand-over. -/
def State.lateShadow (s : State) (a old : Nat) : State := (s.setLate ((pageOf a).getD 0)).holdBack a old

end Sys2Proof.Machine
end

