-- ==== Sys2Proof/Machine/MemOps.lean ====
section
/-! DEFINITION. Device addresses, HBM mapping and queues, scratch errors, and stores through them (R481 to R496, R511 to R518). -/

namespace Sys2Proof.Machine

/-! ### HBM mapping (R482) -/

/-- Channel, pseudo channel, bank and row of a device address (R482). -/
def hbmCh (a : Nat) : Nat := a / 256 % 32
def hbmPc (a : Nat) : Nat := a / 256 / 32 % 2
def hbmBank (a : Nat) : Nat := a / 256 / 64 / 4 % 48
def hbmRow (a : Nat) : Nat := a / 256 / 64 / 192
/-- Key of a pseudo channel, and of a bank of one. -/
def pcKey (ch pc : Nat) : Nat := ch * 2 + pc
def bankKey (ch pc bank : Nat) : Nat := pcKey ch pc * 48 + bank

/-- Device address of a unit (R482). -/
def hbmUnit (ch pc bank row col : Nat) : Nat := 256 * (ch + 32 * pc + 64 * (col + 4 * bank + 192 * row))

/-- The end of the device addresses that hold something: HBM and then scratch (R481, R511). -/
def devEnd : Nat := scratchBase + scratchSize

/-- A byte range lies wholly in HBM, or wholly in scratch (R535, R566). -/
def inHbm (a n : Nat) : Bool := decide (a + n ≤ scratchBase)
def inScratch (a n : Nat) : Bool := decide (scratchBase ≤ a) && decide (a + n ≤ scratchBase + scratchSize)
def mapped (a n : Nat) : Bool := inHbm a n || inScratch a n

/-- Two byte ranges share a byte. -/
def overlaps (a n b m : Nat) : Bool := decide (a < b + m) && decide (b < a + n) && decide (0 < n) && decide (0 < m)

/-! ### Regions (R190, R199) -/

/-- Device address and size of the delay ring and of the beam table, by the active group 1 of SPLIT (R190). -/
def State.rows (s : State) : Nat := bits (s.active SPLIT.ROW_CFG) 10 8
def State.strips (s : State) : Nat := bits (s.active SPLIT.ROW_CFG) 20 16
def State.spacing (s : State) : Nat := bits (s.active SPLIT.ROW_CFG) 6 0
def State.columns (s : State) : Nat := 4096 * s.strips

/-- The delay ring and beam table regions, as device address and size (R192, R194). -/
def State.delayRegion (s : State) : Nat × Nat := (scratchBase + s.active SPLIT.DELAY_LO, 256 * s.columns)
def State.beamRegion (s : State) : Nat × Nat := (scratchBase + s.active SPLIT.BEAM_LO, 4 * 327680)

/-- R199: n bytes at a device address touch a region that host writes through BAR2 must not change while SPLIT.CTRL.EN is 1. -/
def State.protects (s : State) (a n : Nat) : Bool :=
  s.enabled pSPLIT && (overlaps a n s.delayRegion.1 s.delayRegion.2 || overlaps a n s.beamRegion.1 s.beamRegion.2)

/-- Bytes stored at a device address but for those in the address ranges `skips`, which are rising. -/
def State.writeSkip (s : State) : Nat → List Byte → List (Nat × Nat) → State
  | a, bs, [] => if bs.isEmpty then s else s.writeMem a bs
  | a, bs, (lo, hi) :: r =>
    (if lo ≤ a then s else s.writeMem a (bs.take (lo - a))).writeSkip (max a hi) (bs.drop (max a hi - a)) r

/-! ### Write queues (R487) -/

/-- WR_HIGH and WR_LOW as they act (R508). -/
def State.wrHigh (s : State) : Nat := max 2 (bits (s.reg HBM.SCHED) 29 24)
def State.wrLow (s : State) : Nat := min (bits (s.reg HBM.SCHED) 21 16) (s.wrHigh - 1)

/-- Entry into drain mode: counted, and the queue falls to WR_LOW (R487). -/
def State.drain (s : State) (k : Nat) : State :=
  let n := (keyGet s.hbm.writes k).getD 0
  { s with hbm := { s.hbm with writes := keySet s.hbm.writes k (min n s.wrLow) } }.bump HBM.WR_DRAINS 1

/-- One write of a unit enters the queue of its pseudo channel (R487). -/
def State.queueWrite (s : State) (a : Nat) : State :=
  let k := pcKey (hbmCh a) (hbmPc a)
  let n := (keyGet s.hbm.writes k).getD 0 + 1
  let s : State := { s with hbm := { s.hbm with writes := keySet s.hbm.writes k n } }
  if s.wrHigh ≤ n then s.drain k else s

/-- The 256-byte units of HBM that n bytes at a touch. -/
def unitsOf (a n : Nat) : List Nat :=
  let n := min n (scratchBase - a)
  if n = 0 then [] else (List.range ((a + n - 1) / 256 - a / 256 + 1)).map fun i => (a / 256 + i) * 256

/-- Bytes at a device address; a byte beyond the last address is one the spec leaves open (log 3). -/
def State.readDev (s : State) (a n : Nat) : List Byte × State :=
  let k := min n (devEnd - a)
  if k = n then (s.readMem a n, s)
  else
    let (u, s) := s.freshBytes (n - k)
    (s.readMem a k ++ u, s)

/-- The controller serves requests now: not while EN is 0 (R508) or at a rate change (R500). -/
def State.hbmRuns (s : State) : Bool := s.enabled pHBM && !s.hbm.rateBusy

/-- Each pseudo channel serves one queued write, as it does outside drain mode once no read waits (R486). -/
def State.serveWrites (s : State) : State :=
  if s.hbmRuns && s.hbm.low != 2 then
    { s with hbm := { s.hbm with writes := (s.hbm.writes.map fun w => (w.1, w.2 - 1)).filter fun w => w.2 != 0 } }
  else s

/-! ### Row activates (R491) -/

/-- The index of the smallest count, the lowest entry on ties. -/
def minEntry (t : ActTable) : Nat :=
  let m := t.foldl (fun m e => min m e.2) (t.headD (0, 0)).2
  t.findIdx fun e => e.2 == m

/-- The table after an activate of a row, before the threshold (R491). -/
def actCount (t : ActTable) (row : Nat) : ActTable :=
  if t.any fun e => e.1 == row then t.map fun e => if e.1 = row then (e.1, e.2 + 1) else e
  else if t.length < 8 then t ++ [(row, 1)]
  else modAt t (minEntry t) fun e => (row, e.2 + 1)

/-- on_activate(row) of R491 for one bank. -/
def State.activateRow (s : State) (ch pc bank row : Nat) : State :=
  let k := bankKey ch pc bank
  let t := actCount ((keyGet s.hbm.tables k).getD []) row
  let hit := t.any fun e => e.1 == row && decide (bits (s.active HBM.ACT_CFG) 31 16 ≤ e.2)
  let t := if hit then t.map fun e => if e.1 = row then (e.1, 0) else e else t
  let s : State := { s with hbm := { s.hbm with tables := keySet s.hbm.tables k t } }
  if hit then s.bump HBM.NEIGHBOUR_REFRESHES 1 else s

/-- The activate of the row of a device address. -/
def State.activateAt (s : State) (a : Nat) : State := s.activateRow (hbmCh a) (hbmPc a) (hbmBank a) (hbmRow a)

/-- A command on the unit at a device address: its row is activated, and the retry buffer of its channel keeps it (R491, R493). -/
def State.hbmCommand (s : State) (a : Nat) : State :=
  let c := hbmCh a
  let s := s.activateAt a
  { s with hbm := { s.hbm with retry := keySet s.hbm.retry c ((a :: (keyGet s.hbm.retry c).getD []).take 64) } }

/-- The activate tables are cleared at an exit from self-refresh (R492), and the stacks are active. -/
def State.leaveSelfRefresh (s : State) : State :=
  if s.hbm.low = 2 then { s with hbm := { s.hbm with low := 0, tables := [] } } else s

/-! ### Wake events (R611) -/

/-- HBM leaves power-down and self-refresh (R502, R504, R607), not within a rate change. -/
def State.hbmActive (s : State) : State :=
  if s.hbm.rateBusy then s
  else { s with hbm := { s.hbm with low := 0, tables := if s.hbm.low = 2 then [] else s.hbm.tables } }

/-- PWR's counter of entries into a state. -/
def State.countEntry (s : State) (st : Nat) : State :=
  if st = 1 then s.bump PWR.READY_ENTRIES 1
  else if st = 2 then s.bump PWR.DOZE_ENTRIES 1
  else if st = 3 then s.bump PWR.NAP_ENTRIES 1
  else s

/-- The counter, the STATE record and the interrupt of a change of the power state (R631). -/
def State.powerMoved (s : State) (old : Nat) : State :=
  ((s.countEntry s.power.st).event pPWR V.STATE [.f 1 old, .f 1 s.power.st, .f 1 s.power.lastWake]).raise pPWR 2

/-- R612: the time spent in NAP is added to NAP_MS. -/
def State.napMs (s : State) : State := s.bump PWR.NAP_MS ((s.time.epoch * 2 ^ 32 + s.time.ns - s.power.napSince) / 1000000)

/-- R611: a wake event of a cause moves Riluz out of DOZE or NAP. The lanes that NAP powered down begin their bring-up with the next tick or with a
command that log 54 names, within the exit latency (DEDUCED). -/
def State.wakeEvent (s : State) (cause : Nat) : State :=
  let old := s.power.st
  if old = 2 ∨ old = 3 then
    let s := (if old = 3 then s.napMs else s).hbmActive
    ({ s with power := { s.power with st := 1, lastWake := cause } } : State).powerMoved old
  else s

/-- LAST_WAKE of wake events (R631). -/
def wakeREGISTER : Nat := 1
def wakeMEMORY : Nat := 2
def wakePRESS_RUN : Nat := 4
def wakeSPLICE : Nat := 5
def wakeNETWORK : Nat := 6
def wakePEER : Nat := 7
def wakeD3_EXIT : Nat := 8

/-- Accesses to device addresses reach HBM where they lie in it: each makes the controller leave self-refresh (R504), and each unit accessed is one
command that activates its row: which rows are still open is the controller's own choice (DESIGN CHOICE, log 74). -/
def State.touchRows (s : State) (rs : List (Nat × Nat)) : State :=
  let us := rs.flatMap fun r => unitsOf r.1 r.2
  if us.isEmpty then s else us.foldl State.hbmCommand s.leaveSelfRefresh

/-- Requests to HBM are wake events (R611). -/
def State.touch (s : State) (rs : List (Nat × Nat)) : State :=
  (if rs.all fun r => (unitsOf r.1 r.2).isEmpty then s else s.wakeEvent wakeMEMORY).touchRows rs

/-- A byte range has a unit in the pseudo channel under repair (R505); 64 units in a row lie in every pseudo channel (R482). -/
def inRepair (sel a n : Nat) : Bool :=
  let n := min n (scratchBase - a)
  decide (64 * 256 ≤ n) || (unitsOf a n).any fun u => bits sel 28 24 == hbmCh u && bits sel 30 30 == hbmPc u

/-- The controller serves an access now: not while EN is 0, at a rate change, or to a pseudo channel under repair (R500, R505, R508). An access
that has no unit in HBM waits for nothing. -/
def State.hbmServes (s : State) (a n : Nat) : Bool :=
  n == 0 || decide (scratchBase ≤ a) || (s.hbmRuns && match s.hbm.repair with
    | none => true
    | some r => !inRepair r a n)

/-- Every access of a command can be served now; while one cannot, the command's end does not come (R500, R505, R508). -/
def State.served (s : State) (rs : List (Nat × Nat)) : Bool := rs.all fun r => s.hbmServes r.1 r.2

/-! ### Poisoned requests (R495, R496) -/

/-- Requesters of R495, in the order of its table; the spec states no code for them in the record (log 21). -/
inductive Requester where
  | composition | splitter | decoder | mailbag | dma | compressor | checkUnit | ledger | bar2
  deriving DecidableEq, Repr

/-- Position of a requester in the table. -/
def Requester.index : Requester → Nat
  | .composition => 0 | .splitter => 1 | .decoder => 2 | .mailbag => 3 | .dma => 4 | .compressor => 5 | .checkUnit => 6 | .ledger => 7
  | .bar2 => 8

/-- R496: a poisoned request is counted, recorded and signalled; `jobLine` is the job and line of composition and the splitter. -/
def State.poisonedReq (s : State) (r : Nat) (a : Nat) (jobLine : List Fld) : State :=
  ((s.event pHBM V.POISONED_REQ ([.f 1 (Config.requesterCode r).toNat, .f 5 a] ++ jobLine)).bump HBM.POISONS 1).raise pHBM 3

/-- R495: an uncorrectable read of the stack is counted and its address kept. -/
def State.hbmUncorr (s : State) (a : Nat) : State :=
  ((s.bump HBM.UNCORR_READS 1).setReg HBM.UNCORR_LAST_LO (a % 2 ^ 32)).setReg HBM.UNCORR_LAST_HI (a / 2 ^ 32)

/-- Requesters whose poisoned request PARITY_FAIL records itself; composition and the splitter record theirs with the job and line (R496). -/
def recordedAtFail (r : Nat) : Bool := decide (2 ≤ r)

/-- R495, R496: the outcome of a poisoned request. One that R494 gave up on is taken from those due; any other is a read (or `write`) that
the stack reported uncorrectable. -/
def State.poisoned (s : State) (r : Requester) (a : Nat) (write : Bool) (jobLine : List Fld) : State :=
  match s.hbm.poisonDue.find? fun d => d.1 == r.index with
  | some d =>
    let s : State := { s with hbm := { s.hbm with poisonDue := s.hbm.poisonDue.erase d } }
    if recordedAtFail r.index then s else s.poisonedReq r.index d.2 jobLine
  | none => (if write then s else s.hbmUncorr a).poisonedReq r.index a jobLine

/-! ### Scratch errors (R514 to R518) -/

/-- Scratch masters (R513). -/
def mSPLIT : Nat := 0
def mJLINK : Nat := 1
def mFRANK : Nat := 2
def mDEC : Nat := 3
def mDMA : Nat := 4
def mCMP : Nat := 5
def mCHK : Nat := 6
def mCOPY : Nat := 7

/-- Page of a scratch master; COPY belongs to SCR. -/
def masterPage (m : Nat) : Nat := [pSPLIT, pJLINK, pFRANK, pDEC, pDMA, pCMP, pCHK, pSCR].getD m pSCR

/-- R514: a lost arbitration is counted for the master and its page. -/
def State.conflict (s : State) (m : Nat) : State := (s.bump (SCR.CONFLICTS m) 1).bump (CONFLICT (masterPage m)) 1

/-- R517: a corrected read of the word at a scratch address adds 1 to CORR of the physical bank that serves it, and to the bank's tally. -/
def State.eccCorrected (s : State) (a : Nat) : State :=
  let p := s.scr.readBank (scrBank a) (scrWord a)
  let s : State := { s with scr := { s.scr with corr := modAt s.scr.corr p fun n => min (n + 1) 0xFFFF } }
  s.report pSCR E.ECC_CORRECTED p 1 [.f 1 p] [.f 1 p] (some pSCR) none false

/-- The 1 ms interval of a bank ends: its tally closes (R517). -/
def State.eccIntervalEnds (s : State) (p : Nat) : State := s.closeCause E.ECC_CORRECTED p

/-- R518: the record of an uncorrectable read of the word at a scratch address, with its master. -/
def State.eccRecord (s : State) (m a : Nat) : State :=
  (((s.error pSCR E.ECC_UNCORRECTABLE [.f 1 m, .f 5 (scratchBase + a)]).bump SCR.UNCORR 1).setReg SCR.UNCORR_LAST a).raise pSCR 2

/-- A word of a physical bank shows a double-bit error from now on. -/
def State.markWord (s : State) (p w : Nat) : State :=
  let q := p * 65536 + w
  { s with scr := { s.scr with bad := if s.scr.bad.contains q then s.scr.bad else insertBy id q s.scr.bad } }

/-- R518: an uncorrectable read is recorded, and the word stays as it is: it shows its double-bit error to every read until it is written. -/
def State.eccUncorrectable (s : State) (m a : Nat) : State :=
  (s.eccRecord m a).markWord (s.scr.readBank (scrBank a) (scrWord a)) (scrWord a)

/-- The scratch addresses of the words with a double-bit error that a read of n bytes at a device address meets (R518, R522). -/
def State.badAt (s : State) (a n : Nat) : List Nat :=
  sortBy id ((s.scr.bad.filterMap (badAddr fun b w => [s.scr.readBank b w])).filter fun x => overlaps (scratchBase + x) 8 a n)

/-- R516: a port B write of `m` lost to the port A master. -/
def State.writeLost (s : State) (m a : Nat) (jlink : Bool) : State :=
  ((s.error pSCR E.WRITE_LOST [.f 1 (if jlink then mJLINK else mSPLIT), .f 1 m, .f 5 (scratchBase + a)]).bump SCR.LOST_WRITE 1).raise pSCR 5

/-- R527: an uncorrectable read of a word of the vault is recorded under R518, with its vault address; the table of R513 has no master for it
(log 21). The word keeps its double-bit error. -/
def State.keyUncorrectable (s : State) (w : Nat) : State :=
  let s : State := { s with vault := { s.vault with bad := if s.vault.bad.contains w then s.vault.bad else insertBy id w s.vault.bad } }
  (((s.error pSCR E.ECC_UNCORRECTABLE [.f 1 Config.vaultMaster.toNat, .f 5 (8 * w)]).bump SCR.UNCORR 1).setReg SCR.UNCORR_LAST (8 * w)).raise pSCR 2

/-! ### What the memories report (R495, R514 to R518) -/

/-- A fault names the 8-byte scratch word of a scratch address as uncorrectable. -/
def faultNames (f : MemFault) (a : Nat) : Bool :=
  match f with
  | .uncorrectable b => a / 8 == b / 8
  | _ => false

/-- What a command meets whose requests read the device ranges `rs`: what is reported, and the words there that show a double-bit error. -/
def State.meets (s : State) (rs : List (Nat × Nat)) (mem : MemRep) : MemRep :=
  { mem with faults := mem.faults ++
      ((rs.flatMap fun r => s.badAt r.1 r.2).filter fun a => !mem.faults.any fun f => faultNames f a).map MemFault.uncorrectable }

/-- A failed request is a read (R495, R518). -/
def failsRead : MemFault → Bool
  | .poisoned _ write => !write
  | .uncorrectable _ => true
  | _ => false

/-- A failed request is a poisoned one (R495). -/
def isPoison : MemFault → Bool
  | .poisoned _ _ => true
  | _ => false

/-- The units that the failed reads of a command touch, and those of its poisoned writes, as device address ranges (R482, R511). -/
def readFails (fs : List MemFault) : List (Nat × Nat) :=
  fs.filterMap fun f => match f with
    | .poisoned a false => some (a / 256 * 256, 256)
    | .uncorrectable a => some ((scratchBase + a) / 256 * 256, 256)
    | _ => none
def writeFails (fs : List MemFault) : List (Nat × Nat) :=
  fs.filterMap fun f => match f with
    | .poisoned a true => some (a / 256 * 256, 256)
    | _ => none

/-- Bytes at a device address, of which those in the ranges `rs` are ones that the spec leaves open (log 3). -/
def State.undefined (s : State) (a : Nat) (bs : List Byte) (rs : List (Nat × Nat)) : List Byte × State :=
  if rs.isEmpty then (bs, s)
  else (bs.mapIdx (fun i b => if rs.any fun r => decide (r.1 ≤ a + i) && decide (a + i < r.1 + r.2) then Config.freeByte s.free i else b),
    { s with free := s.free + 1 })

/-- A failed request, of a requester (R495) and a scratch master (R513). -/
def State.memFault (s : State) (r : Requester) (m : Nat) : MemFault → State
  | .poisoned a write => s.poisoned r a write []
  | .uncorrectable a => s.eccUncorrectable m a
  | .writeLost a jlink => s.writeLost m a jlink
  | .keyUncorrectable w => s.keyUncorrectable w

/-- What the memories report of the requests of a command. -/
def State.memReport (s : State) (r : Requester) (m : Nat) (rep : MemRep) : State :=
  let s := if rep.corrected = 0 then s else s.bump HBM.CORR_READS rep.corrected
  let s := rep.lost.foldl State.conflict (rep.single.foldl State.eccCorrected s)
  rep.faults.foldl (fun s f => s.memFault r m f) s

/-- The first and the last word of n bytes at a device address, where a store holds them in part only and they lie in scratch (R512). -/
def partWords (a n : Nat) : List Nat :=
  if n = 0 then []
  else (if a / 8 = (a + n - 1) / 8 then [a / 8 * 8] else [a / 8 * 8, (a + n - 1) / 8 * 8]).filter fun w =>
    decide (scratchBase ≤ w) && !(decide (a ≤ w) && decide (w + 8 ≤ a + n))

/-- What a store of n bytes at a device address reads first (R512). -/
def partReads (a n : Nat) : List (Nat × Nat) := (partWords a n).map fun w => (w, 8)

/-- Words whose write was lost to port A (R516), as device address ranges. -/
def lostWords (fs : List MemFault) : List (Nat × Nat) :=
  fs.filterMap fun f => match f with
    | .writeLost w _ => some (scratchBase + w / 8 * 8, scratchBase + w / 8 * 8 + 8)
    | _ => none

/-- Bytes that a master other than the splitter stores at a device address: through the write queues where it is HBM (R487). A part of a word
with a double-bit error is dropped, and recorded unless the command has reported that word (R512, R518); a word lost to port A keeps its data
(R516). Beam entries take nothing while SPLIT.CTRL.EN is 1 (R199), and bytes beyond the last address go nowhere. -/
def State.storeDev (s : State) (m a : Nat) (bs : List Byte) (fs : List MemFault := []) : State :=
  let bs := bs.take (devEnd - a)
  let dead := (partWords a bs.length).filter fun w => !(s.badAt w 8).isEmpty
  let s := (dead.filter fun w => !fs.any fun f => faultNames f (w - scratchBase)).foldl (fun s w => s.eccUncorrectable m (w - scratchBase)) s
  let beam := if s.enabled pSPLIT then [(s.beamRegion.1, s.beamRegion.1 + s.beamRegion.2)] else []
  ((unitsOf a bs.length).foldl State.queueWrite s).writeSkip a bs (sortBy Prod.fst (beam ++ lostWords fs ++ dead.map fun w => (w, w + 8)))

/-- What the poisoned writes of a command leave in the units of the device ranges `rs`, which it has stored to: the spec does not say (log 3). -/
def State.spoilWrites (s : State) (fs : List MemFault) (rs : List (Nat × Nat)) : State :=
  if (writeFails fs).isEmpty then s
  else rs.foldl (fun s r =>
    let (bs, s) := s.undefined r.1 (s.readMem r.1 r.2) (writeFails fs)
    s.writeMem r.1 bs) s

/-! ### Places in a region (R130, R484) -/

/-- A part of a region put before the first one that lies above it. -/
def insertPart (p : Nat × Nat) : List (Nat × Nat) → List (Nat × Nat)
  | [] => [p]
  | q :: qs => if p.1 < q.1 then p :: q :: qs else q :: insertPart p qs

/-- The free parts of a region of `size` bytes from offset `o` on, where `used` is rising. -/
def freeParts (size : Nat) : Nat → List (Nat × Nat) → List (Nat × Nat)
  | o, [] => if o < size then [(o, size - o)] else []
  | o, (a, n) :: rs => (if o < a then [(o, a - o)] else []) ++ freeParts size (max o (a + n)) rs

/-- The first `n` bytes of a list of parts. -/
def takeParts : Nat → List (Nat × Nat) → List (Nat × Nat)
  | _, [] => []
  | n, (a, k) :: ps => if n = 0 then [] else if n ≤ k then [(a, n)] else (a, k) :: takeParts (n - k) ps

/-- The lowest `n` free bytes of a region: where Riluz puts data in it is its own choice (DESIGN CHOICE, log 77). -/
def findPlace (size : Nat) (used : List (Nat × Nat)) (n : Nat) : List (Nat × Nat) :=
  takeParts n (freeParts size 0 (used.foldr insertPart []))

/-- The parts of a place as device addresses, in a region at `base`. -/
def placeRegions (base : Nat) (place : List (Nat × Nat)) : List (Nat × Nat) := place.map fun p => (base + p.1, p.2)

/-- Bytes stored over a list of device regions, in order. -/
def State.storeRegions (s : State) (m : Nat) (fs : List MemFault) : List (Nat × Nat) → List Byte → State
  | [], _ => s
  | (a, n) :: rs, bs => (s.storeDev m a (bs.take n) fs).storeRegions m fs rs (bs.drop n)

/-- The part of `n` bytes from an offset on of a list of device regions. -/
def subRegions : List (Nat × Nat) → Nat → Nat → List (Nat × Nat)
  | [], _, _ => []
  | (a, k) :: rs, off, n =>
    let m := min n (k - off)
    (if m = 0 then [] else [(a + off, m)]) ++ (if n = m then [] else subRegions rs (off - k) (n - m))

/-- The bytes of a list of device regions. -/
def State.loadAll (s : State) (rs : List (Nat × Nat)) : List Byte := rs.flatMap fun r => s.readMem r.1 r.2

/-- `n` bytes from an offset on of a list of device regions. -/
def State.loadRegions (s : State) (rs : List (Nat × Nat)) (off n : Nat) : List Byte := s.loadAll (subRegions rs off n)

end Sys2Proof.Machine
end

