-- ==== Sys2Proof/Machine/Dma.lean ====
section
/-! DEFINITION. Descriptor rings, the letter streams they carry, pacing, completion queues, and the host port's link (R533 to R562). -/

namespace Sys2Proof.Machine

/-- Ring `n`. -/
def State.ringOf (s : State) (n : Nat) : Ring := s.dma.ring.getD n {}
/-- Ring `n` changed. -/
def State.setRing (s : State) (n : Nat) (f : Ring → Ring) : State := { s with dma := { s.dma with ring := modAt s.dma.ring n f } }
/-- The letter stream of ring `n`. -/
def State.streamOf (s : State) (n : Nat) : Stream := s.dma.stream.getD n {}
/-- The letter stream of ring `n` changed. -/
def State.setStream (s : State) (n : Nat) (f : Stream → Stream) : State := { s with dma := { s.dma with stream := modAt s.dma.stream n f } }

/-! ### Descriptors (R539, R542, R543) -/

/-- The fields of a descriptor (R539). -/
def Desc.word0 (d : Desc) : Nat := fld d.bytes 0 4
def Desc.len (d : Desc) : Nat := fld d.bytes 4 4
def Desc.hostAddr (d : Desc) : Nat := fld d.bytes 8 8
def Desc.devAddr (d : Desc) : Nat := fld d.bytes 16 8
def Desc.tag (d : Desc) : Nat := fld d.bytes 24 4
def Desc.param (d : Desc) : Nat := fld d.bytes 28 4

/-- A BOUND and RING register names ring `n`. -/
def namesRing (v n : Nat) : Bool := bit v 31 && bits v 4 0 == n

/-- The bindings that name ring `n` (R542). -/
def State.bindsOf (s : State) (n : Nat) : List Nat :=
  (if bit (s.reg MAIL.LETTER_RINGS) n then [1] else []) ++ (if namesRing (s.reg SEAL.CS_RING) n then [2] else []) ++
  (if namesRing (s.reg ETH.TX_RING) n then [3] else []) ++ (if namesRing (s.reg ETH.RX_RING) n then [4] else []) ++
  (if namesRing (s.reg (CMP.RING_SEL 0)) n then [5] else []) ++ (if namesRing (s.reg (CMP.RING_SEL 1)) n then [6] else [])

/-- BIND of a ring (R542). -/
def State.bindOf (s : State) (n : Nat) : Nat :=
  match s.bindsOf n with
  | [] => 0
  | [b] => b
  | _ => 7

/-- Bytes of the device address space, the BAR2 window (R111, R534). -/
def windowSize : Nat := 2 ^ 36

/-- R111: regions and parameters of a compressor request are acceptable. -/
def cmpRequestOk (src srcLen dst dstLen param : Nat) : Bool :=
  decide (src + srcLen ≤ windowSize) && decide (dst + dstLen ≤ windowSize) && !overlaps src srcLen dst dstLen &&
  decide (bits param 23 0 ≤ 2 ^ 20) && decide (bits param 31 28 ≤ 12)

/-- Completion queue of a ring, and its size (R556, R560). -/
def State.cqOf (s : State) (n : Nat) : Nat := bits (s.active (RING.CFG n)) 18 16
def State.cqSize (s : State) (q : Nat) : Nat := s.active (DMA.CQ_SIZE q)

/-- R543: a descriptor of ring `n` faults. -/
def State.descFaults (s : State) (n : Nat) (d : Desc) : Bool :=
  let w := d.word0
  let kind := bits w 27 24
  let cmp := d.bind == 5 || d.bind == 6
  bit w 28 || bits w 23 16 != 0 || bits w 15 0 != 0 ||
  kind != (if cmp then 1 else 0) || decide (2 ^ 26 < d.len) ||
  (d.bind == 0 && (decide (2 ^ 36 ≤ d.devAddr) || (d.len != 0 && !mapped d.devAddr d.len))) ||
  (!cmp && d.param != 0) || (d.bind == 1 && d.len % 8 != 0) || (bit w 29 && s.cqSize (s.cqOf n) == 0) || d.bind == 7 ||
  (cmp && (decide (2 ^ 36 ≤ d.hostAddr) || decide (2 ^ 36 ≤ d.devAddr) || bits d.param 27 24 != 0 ||
           (d.len != 0 && !mapped d.hostAddr d.len) || (d.tag != 0 && !mapped d.devAddr d.tag) ||
           !cmpRequestOk d.hostAddr d.len d.devAddr d.tag d.param))

/-! ### Bursts, buffer blocks and pacing (R551 to R554) -/

/-- Bytes of a descriptor's data that move in bursts: none of one that only completes, and of an ETH_RX one those of its frame. -/
def Desc.total (d : Desc) : Nat :=
  if d.fault || d.poisoned || decide (5 ≤ d.bind) then 0
  else if d.bind = 4 then (d.frame.map (·.length)).getD 0
  else d.len

/-- Bytes whose bursts are not issued yet. -/
def Desc.left (d : Desc) : Nat := d.total - d.sent

/-- PACE.EN of a ring. -/
def State.paced (s : State) (n : Nat) : Bool := bit (s.reg (RING.PACE n)) 31

/-- Largest burst of a ring: 4 KiB, and in a paced ring PACE.BURST times 256 bytes, where 0 and values above 16 act as 16 (R551, R554). -/
def State.burstMax (s : State) (n : Nat) : Nat :=
  let b := bits (s.reg (RING.PACE n)) 4 0
  if s.paced n && decide (1 ≤ b) && decide (b ≤ 16) then b * 256 else 4096

/-- Bytes of the next burst: it crosses no 4 KiB boundary of host addresses, and no descriptor (R551, R554). -/
def Desc.nextBurst (d : Desc) (b : Nat) : Nat := min d.left (min b (4096 - (d.hostAddr + d.sent) % 4096))

/-- The first descriptor with bytes left issues a burst of at most `b` bytes, which takes a block. -/
def issueBurst (b : Nat) : List Desc → List Desc
  | [] => []
  | d :: ds =>
    if 0 < d.left then { d with sent := d.sent + d.nextBurst b, blocks := d.blocks + 1 } :: ds else d :: issueBurst b ds

/-- The data of the oldest burst in flight leave the buffer, and its block frees. -/
def burstGone : List Desc → List Desc
  | [] => []
  | d :: ds => if 0 < d.blocks then { d with blocks := d.blocks - 1 } :: ds else d :: burstGone ds

/-- The write engine moves a descriptor's data to the host; the read engine moves the others' (R551). -/
def State.writeEngine (s : State) (n : Nat) (d : Desc) : Bool := d.bind == 4 || (d.bind == 0 && bit (s.active (RING.CFG n)) 0)

/-- Rings of the bursts in flight on an engine, oldest first. -/
def Dma.flight (x : Dma) (w : Bool) : List Nat := if w then x.flightWrite else x.flightRead
/-- The bursts in flight on an engine replaced. -/
def Dma.setFlight (x : Dma) (w : Bool) (l : List Nat) : Dma := if w then { x with flightWrite := l } else { x with flightRead := l }

/-- Blocks that a ring holds on an engine, and that the engine holds (R552). -/
def State.ringBlocks (s : State) (w : Bool) (n : Nat) : Nat := ((s.dma.flight w).filter (· == n)).length
def State.bufUsed (s : State) (w : Bool) : Nat := (s.dma.flight w).length

/-- READ_MAX or WRITE_MAX, and MAX_BLOCKS of a ring: 0 acts as 1 (R552, R560, R561). -/
def State.bufMax (s : State) (w : Bool) : Nat := max 1 (if w then bits (s.reg DMA.BUF_CFG) 5 0 else bits (s.reg DMA.BUF_CFG) 21 16)
def State.ringMax (s : State) (n : Nat) : Nat := max 1 (bits (s.active (RING.CFG n)) 29 24)

/-- A block is free for an engine: the buffer has 64 of them (R552). -/
def State.blockFree (s : State) (w : Bool) : Bool := decide (s.bufUsed w < s.bufMax w) && decide (s.bufUsed w + s.bufUsed (!w) < 64)

/-- Ring `n` has a burst for the engine, which its pacing lets go (R554). -/
def State.burstReady (s : State) (w : Bool) (n : Nat) : Bool :=
  match (s.ringOf n).taken.find? fun d => decide (0 < d.left) with
  | some d => s.writeEngine n d == w && (!s.paced n || decide (0 < (s.ringOf n).pacePend))
  | none => false

/-- R553: the ring whose burst gets the next free block: the highest PRIO, then round-robin in ring number. -/
def State.burstRing (s : State) (w : Bool) : Option Nat :=
  let last := if w then s.dma.lastWrite else s.dma.lastRead
  let prio (n : Nat) : Nat := bits (s.active (RING.CFG n)) 9 8
  let order := (List.range 32).map fun i => (last + 1 + i) % 32
  (order.filter fun n => s.burstReady w n && decide (s.ringBlocks w n < s.ringMax n)).foldl (fun b n => match b with
    | none => some n
    | some m => if prio m < prio n then some n else some m) none

/-- The read requests of the next burst of ring `n` (R551). -/
def State.burstRead (s : State) (n : Nat) : State :=
  match (s.ringOf n).taken.find? fun d => decide (0 < d.left) with
  | some d => s.hostReads (d.hostAddr + d.sent) (d.nextBurst (s.burstMax n))
  | none => s

/-- Ring `n` issues its next burst on an engine: it takes a block and, where the ring is paced, one pending request. -/
def State.burst (s : State) (w : Bool) (n : Nat) : State :=
  let s := if w then s else s.burstRead n
  let s := s.setRing n fun r => { r with taken := issueBurst (s.burstMax n) r.taken, pacePend := if s.paced n then r.pacePend - 1 else r.pacePend }
  let d := s.dma.setFlight w (s.dma.flight w ++ [n])
  { s with dma := if w then { d with lastWrite := n } else { d with lastRead := n } }

/-- Free blocks of an engine go to bursts one by one (R552, R553); `fuel` bounds the blocks. -/
def State.giveBlocks : Nat → State → Bool → State
  | 0, s, _ => s
  | fuel + 1, s, w =>
    if s.blockFree w then
      match s.burstRing w with
      | none => s
      | some n => State.giveBlocks fuel (s.burst w n) w
    else s

/-- The engines issue the bursts that blocks and pacing allow (R551 to R554). -/
def State.issue (s : State) : State := State.giveBlocks 64 (State.giveBlocks 64 s false) true

/-- The data of the oldest burst of an engine leave the buffer, and the block goes to the next burst (R553). -/
def State.burstLeaves (s : State) (w : Bool) : State :=
  match s.dma.flight w with
  | [] => s
  | n :: l =>
    let s := s.setRing n fun r => { r with taken := burstGone r.taken }
    ({ s with dma := s.dma.setFlight w l } : State).issue

/-- The bursts of the oldest descriptor of ring `n` go through the buffer, in the order in which the engine issued them, with those of other
rings that stand before them; where pacing holds the ring they go no further (DESIGN CHOICE, log 73: no command tells when the data of a burst
leave). `fuel` bounds the bursts. -/
def State.runEngine : Nat → State → Nat → State
  | 0, s, _ => s
  | fuel + 1, s, n =>
    match (s.ringOf n).taken with
    | [] => s
    | d :: _ =>
      let w := s.writeEngine n d
      if d.left = 0 && d.blocks = 0 then s
      else if (s.dma.flight w).isEmpty then s
      else State.runEngine fuel (s.burstLeaves w) n

/-- Bursts that descriptors held by the engines can still issue or have in flight, at most (R551, R554). -/
def State.burstsLeft (s : State) : Nat :=
  sumNat ((List.range 32).map fun n => sumNat ((s.ringOf n).taken.map fun d => d.left / 256 + d.left / 4096 + 2 + d.blocks))

/-- R554: one request reaches ring `n`. -/
def State.paceRing (s : State) (n : Nat) : State :=
  if (s.ringOf n).pacePend = 255 then s.bump (RING.PACE_OVERRUNS n) 1
  else (s.setRing n fun r => { r with pacePend := r.pacePend + 1 }).issue

/-- Lines 12 to 47 never request (R555). -/
def paceLine (line : Nat) : Bool := decide (line < 12) || decide (48 ≤ line)

/-- R554, R555: a request on a pacing line. -/
def State.paceRequest (s : State) (line : Nat) : State :=
  if paceLine line then
    (List.range 32).foldl (fun s n => if s.paced n && bits (s.reg (RING.PACE n)) 21 16 == line then s.paceRing n else s) s
  else s

/-- PACE_REQUEST (R554). -/
def execPaceRequest (line : Fin 64) (s : State) : Host.Outcome State Fault Refusal := .next (settle s (s.paceRequest line))

/-- R555: a write of SOFT_REQ. -/
def State.softReq (s : State) (lines : Nat) : State :=
  (List.range 16).foldl (fun s i => if bit lines i then s.paceRequest (48 + i) else s) s

/-- SOFT_REQ (R555). -/
def execSoftReq (lines : BitVec 16) (s : State) : Host.Outcome State Fault Refusal :=
  .next (settle s ((s.wakeEvent wakeREGISTER).softReq lines.toNat))

/-! ### Taking descriptors (R546 to R550) -/

/-- The engine may take a descriptor of ring `n` now: not while a letter of the ring waits for room in the mailbag region (R484). -/
def State.mayTake (s : State) (n : Nat) : Bool :=
  let r := s.ringOf n
  s.enabled pDMA && s.enabled (pRING n) && !r.halted && !(r.taken.any (·.fault)) && (!r.waiting || r.reading) &&
  s.active (RING.SIZE n) != 0 && !(s.streamOf n).full

/-- R547: the descriptor at HEAD has OWN at 0. -/
def State.endOfChain (s : State) (n : Nat) : State :=
  if (s.ringOf n).doorbell then s.setRing n fun r => { r with doorbell := false }
  else ((s.setRing n fun r => { r with waiting := true, reading := false }).bump (RING.WAITS n) 1).raise (pRING n) 3

/-- R539 to R543: the engine takes the descriptor at HEAD; HEAD stays at one that faults until its write-back. A descriptor that is not MAIL
ends the carrying of letters, so that the parsing starts anew at the next one that is (R542). -/
def State.takeDesc (s : State) (n : Nat) (bytes : List Byte) (ep : Bool) : State :=
  let r := s.ringOf n
  let bind := s.bindOf n
  let d : Desc := { index := r.head, bytes := bytes, bind := bind, poisoned := ep, drop := (s.streamOf n).mute, first := r.restart && bind == 1 }
  let d := { d with fault := !ep && s.descFaults n d }
  (s.setRing n fun r =>
    { r with taken := r.taken ++ [d], waiting := false, reading := false, doorbell := false, restart := bind != 1,
             head := if d.fault then r.head else (r.head + 1) % s.active (RING.SIZE n) }).issue

/-- A read completion received with EP, or a posted request: recorded and counted (R538). -/
def State.poisonedTlp (s : State) : State := ((s.error pHOST E.POISONED []).bump HOST.POISONED_TLPS 1).raise pHOST 3

/-- A read of the descriptor at HEAD, 32 bytes in one request, returns (R538, R540, R547). One that was in flight when the ring stopped returns
to nothing, but for the record of its EP bit. -/
def State.descFetch (s : State) (n : Nat) (bytes : List Byte) (ep : Bool) : State :=
  if s.mayTake n then
    let s := s.emit (.hostRead (s.active64 (RING.BASE_LO n) (RING.BASE_HI n) + 32 * (s.ringOf n).head) 32)
    if ep then (s.takeDesc n bytes true).poisonedTlp
    else if bit (fld bytes 0 4) 31 then s.takeDesc n bytes false
    else s.endOfChain n
  else if ep then s.poisonedTlp
  else s

/-- DESC_FETCH (R547). -/
def execDescFetch (ring : Fin 32) (descriptor : List Byte) (ep : Bool) (s : State) : Host.Outcome State Fault Refusal :=
  .next (settle s (s.descFetch ring descriptor ep))

/-- R548: a doorbell makes the engine read the descriptor at HEAD once more; it is pending while a read is in flight. -/
def State.doorbell (s : State) (n : Nat) : State :=
  s.setRing n fun r => if r.waiting && !r.reading then { r with reading := true } else { r with doorbell := true }

/-- DOORBELL (R548). -/
def execDoorbell (ring : Fin 32) (s : State) : Host.Outcome State Fault Refusal := .next (settle s ((s.wakeEvent wakeREGISTER).doorbell ring))

/-- R543, R547: RESUME restarts a halted ring at HEAD, and a waiting ring reads again. -/
def State.ringResume (s : State) (n : Nat) : State :=
  s.setRing n fun r => { r with restart := r.restart || r.halted, halted := false, reading := r.reading || r.waiting }

/-- RING_RESUME (R543). -/
def execRingResume (ring : Fin 32) (s : State) : Host.Outcome State Fault Refusal := .next (settle s ((s.wakeEvent wakeREGISTER).ringResume ring))

/-! ### Letter streams (R44, R46) -/

/-- Bytes of a letter with its tag and pad, from its header (R44). -/
def letterSize (bs : List Byte) : Nat :=
  let n := 32 + fld bs 16 4 + if bit (fld bs 2 2) 1 then 16 else 0
  (n + 7) / 8 * 8

/-- Whole letters are cut from the stream; a letter with a bad MAGIC ends the parsing (R46), once its JOB and SEQ are there for its record
(R83). `n` bounds the letters. -/
def Stream.cut : Nat → Stream → Stream
  | 0, t => t
  | n + 1, t =>
    if t.mute then { t with part := [] }
    else if t.part.length < 8 then t
    else if fld t.part 6 2 != 0x4C51 && decide (16 ≤ t.part.length) then
      { t with letters := t.letters ++ [t.part.take 32], part := [], mute := true }
    else if t.part.length < 32 || t.part.length < letterSize t.part then t
    else Stream.cut n { t with letters := t.letters ++ [t.part.take (letterSize t.part)], part := t.part.drop (letterSize t.part) }

/-- Bytes of a letter ring's buffer join its stream. -/
def State.streamBytes (s : State) (n : Nat) (d : Desc) (bs : List Byte) : State :=
  s.setStream n fun t =>
    let t := if d.first then { t with part := [] } else t
    if d.drop then t else Stream.cut (bs.length + 1) { t with part := t.part ++ bs }

/-- A letter that a halted ring had begun to deliver is discarded, and parsing restarts (R537, R544). -/
def State.streamHalt (s : State) (n : Nat) : State :=
  (s.setStream n fun t => { t with part := [] }).setRing n fun r =>
    { r with restart := true, taken := r.taken.map fun d => { d with drop := true } }

/-! ### Completion (R541 to R545, R556 to R558) -/

/-- A read of the move failed in HBM, or in scratch, and a write of it was poisoned, or lost (R495, R516, R518). -/
def movePoison (o : MoveRep) : Bool := !o.ep.isEmpty || o.mem.faults.any isPoison
def moveEcc (o : MoveRep) : Bool := o.mem.faults.any fun f => match f with
  | .uncorrectable _ => true
  | _ => false
def moveLost (o : MoveRep) : Bool := o.mem.faults.any fun f => match f with
  | .writeLost _ _ => true
  | _ => false

/-- STATUS code of a move; where it failed in more than one way, the first of R544's table (DESIGN CHOICE, log 73). -/
def moveCode (o : MoveRep) : Nat :=
  if movePoison o then E.POISONED else if moveEcc o then E.ECC_UNCORRECTABLE else if moveLost o then E.WRITE_LOST else E.NONE

/-- What the host and the memories record of a move (R495, R516, R518, R538). -/
def State.moveReport (s : State) (o : MoveRep) : State :=
  (o.ep.foldl (fun s _ => s.poisonedTlp) s).memReport .dma mDMA o.mem

/-- STATUS of a completing descriptor, with its result (R541, R544); none while a compressor request is not done. -/
def Desc.status (d : Desc) (o : MoveRep) : Option Nat :=
  if d.fault then some E.DESC_FAULT
  else if d.poisoned then some E.POISONED
  else if d.bind = 5 ∨ d.bind = 6 then d.done.map (·.1)
  else if d.len = 0 then some E.ZERO
  else if d.bind = 4 ∧ d.frame = none then none
  else some (moveCode o)

/-- KiB counters of moved data (R560, R561). -/
def State.countMoved (s : State) (n len : Nat) (toDevice : Bool) : State :=
  let b := (s.ringOf n).bytes + len
  let s := (s.bump (RING.BYTES_KIB n) (b / 1024)).setRing n fun r => { r with bytes := b % 1024 }
  if toDevice then
    let t := s.dma.readBytes + len
    ({ s with dma := { s.dma with readBytes := t % 1024 } } : State).bump DMA.READ_KIB (t / 1024)
  else
    let t := s.dma.writeBytes + len
    ({ s with dma := { s.dma with writeBytes := t % 1024 } } : State).bump DMA.WRITE_KIB (t / 1024)

/-- Bytes stored in device memory by a host-to-device move: those of a host read completion with EP, and the units of a poisoned write, are
ones the spec leaves open (log 3); a lost write and a dropped part of a word store nothing (R512, R516, R518). -/
def State.moveIn (s : State) (a : Nat) (bs : List Byte) (o : MoveRep) : State :=
  let (bs, s) := s.undefined a bs ((o.ep.map fun p => (a + p.1, p.2)) ++ writeFails o.mem.faults)
  s.storeDev mDMA a bs o.mem.faults

/-- Bytes that a device-to-host move writes, read at a device address: those of the units whose read failed are undefined (R544). -/
def State.moveOut (s : State) (dev host : Nat) (bs : List Byte) (o : MoveRep) : State :=
  let (bs, s) := s.undefined dev bs (readFails o.mem.faults)
  s.hostWrites host bs

/-- Device memory that the data of a descriptor lies in: of a MOVE (R542). -/
def Desc.regions (d : Desc) : List (Nat × Nat) := if d.bind = 0 && !d.fault && !d.poisoned then [(d.devAddr, d.len)] else []

/-- Whole countersigns of a buffer; bytes beyond the last are ignored and the buffer counted (R267). -/
def State.csBuffer (s : State) (bs : List Byte) : State :=
  let n := bs.length / 16
  let cs := (List.range n).map fun i => (bs.drop (16 * i)).take 16
  let s : State := { s with dma := { s.dma with countersigns := s.dma.countersigns ++ cs } }
  if bs.length % 16 = 0 then s else s.bump SEAL.CS_DROPPED 1

/-- What the memory requests of a completing descriptor meet: a device-to-host MOVE reads its region, and a host-to-device one the words that
it writes in part (R512, R518). -/
def State.moveMeets (s : State) (n : Nat) (d : Desc) (o : MoveRep) : MoveRep :=
  if d.regions.isEmpty then { o with mem := {} }
  else { o with mem := s.meets (if s.writeEngine n d then d.regions else partReads d.devAddr d.len) o.mem }

/-- The data of a descriptor moves (R542). `data` is what the host returned for a host-to-device descriptor. -/
def State.moveData (s : State) (n : Nat) (d : Desc) (data : List Byte) (o : MoveRep) : State :=
  let bs := data.take d.len ++ List.replicate (d.len - data.length) 0
  let s := (s.touch d.regions).moveReport o
  let ok := moveCode o == E.NONE
  match d.bind with
  | 0 =>
    if s.writeEngine n d then (s.countMoved n d.len false).moveOut d.devAddr d.hostAddr (s.readMem d.devAddr d.len) o
    else (s.countMoved n d.len true).moveIn d.devAddr bs o
  | 1 =>
    let s := s.countMoved n d.len true
    if ok then s.streamBytes n d bs else s
  | 2 =>
    let s := s.countMoved n d.len true
    if ok then s.csBuffer bs else s
  | 3 =>
    let s := s.countMoved n d.len true
    if ok then { s with eth := { s.eth with txQueue := s.eth.txQueue ++ [bs] } } else s
  | 4 =>
    let f := d.frame.getD []
    (s.countMoved n f.length false).hostWrites d.hostAddr f
  | _ => s

/-- Result of R541: bytes moved, frame bytes, or output length; the spec does not state it for a move that failed (log 3). -/
def State.moveResult (s : State) (d : Desc) (o : MoveRep) : Nat × State :=
  if d.fault then (0, s)
  else if d.bind = 5 ∨ d.bind = 6 then ((d.done.map (·.2.1)).getD 0, s)
  else if d.poisoned then s.fresh
  else if d.len = 0 then (0, s)
  else if moveCode o = E.NONE then ((d.frame.map (·.length)).getD d.len, s)
  else s.fresh

/-- R558: a completion queue is full. -/
def State.cqFull (s : State) (q : Nat) : Bool :=
  let n := s.cqSize q
  n != 0 && (s.reg (DMA.CQ_TAIL q) + 1) % n == s.reg (DMA.CQ_HEAD q) % n

/-- R556, R557: one entry is posted. -/
def State.cqPost (s : State) (q n : Nat) (d : Desc) (status result : Nat) : State :=
  let size := s.cqSize q
  if size = 0 then s
  else
    let tail := s.reg (DMA.CQ_TAIL q)
    let phase := s.dma.phase.getD q true
    let value := if d.bind = 5 ∨ d.bind = 6 then (d.done.map (·.2.2)).getD 0 else d.tag
    let entry := leBytes 2 status ++ leBytes 1 n ++ leBytes 1 (if phase then 1 else 0) ++ leBytes 2 d.index ++ leBytes 2 0 ++
                 leBytes 4 result ++ leBytes 4 value
    let s := s.emit (.hostWrite (s.active64 (DMA.CQ_BASE_LO q) (DMA.CQ_BASE_HI q) + 16 * tail) entry)
    let s := s.setReg (DMA.CQ_TAIL q) ((tail + 1) % size)
    let s : State := if tail + 1 = size then { s with dma := { s.dma with phase := s.dma.phase.set q (!phase) } } else s
    let s := (s.bump (DMA.CQ_POSTED q) 1).raise pDMA (8 + q)
    if s.cqFull q then ((s.error pDMA E.QUEUE_OVERFLOW []).bump DMA.CQ_FULLS 1).raise pDMA 3 else s

/-- A ring halts (R543, R544). -/
def State.ringHalt (s : State) (n : Nat) : State := (s.setRing n fun r => { r with halted := true }).raise (pRING n) 4

/-- The write-back of a descriptor and what follows it (R541, R543, R544, R557). -/
def State.writeBack (s : State) (n : Nat) (d : Desc) (status result : Nat) : State :=
  let w := d.word0
  let w' := bits w 30 29 * 2 ^ 29 + bits w 27 24 * 2 ^ 24 + status
  let base := s.active64 (RING.BASE_LO n) (RING.BASE_HI n)
  let s := s.emit (.hostWrite (base + 32 * d.index) (leBytes 4 w' ++ leBytes 4 result))
  let s := (s.setRing n fun r => { r with taken := r.taken.drop 1 }).bump (RING.DONE_COUNT n) 1
  let s := if status = E.ZERO then s.bump (RING.ZEROS n) 1 else s
  let s := if bit w 29 then s.cqPost (s.cqOf n) n d status result else s
  let s := if bit w 30 then s.raise (pRING n) 2 else s
  if status = E.DESC_FAULT then
    let s := s.setRing n fun r => { r with head := (r.head + 1) % max 1 (s.active (RING.SIZE n)) }
    let s := if d.bind = 1 then s.streamHalt n else s
    (((s.ringHalt n).error (pRING n) E.DESC_FAULT []).bump DMA.FAULTS 1).raise pDMA 2
  else if d.bind = 1 ∧ status ≠ E.NONE ∧ status ≠ E.ZERO then (s.ringHalt n).streamHalt n
  else s

/-- The oldest descriptor of a ring completes, unless the data of its bursts have not all left the buffer, its memory serves no request now,
its compressor or frame has not come, or its completion queue is full (R500, R505, R546, R552, R554, R558). A MAIL buffer of no bytes moves none,
but parsing starts at it where it has to start anew (R542). -/
def State.complete (s : State) (n : Nat) (data : List Byte) (o : MoveRep) : State :=
  match (s.ringOf n).taken with
  | [] => s
  | d :: _ =>
    let o := s.moveMeets n d o
    match d.status o with
    | none => s
    | some status =>
      if 0 < d.left || 0 < d.blocks || !s.served d.regions then s
      else if bit d.word0 29 && s.cqFull (s.cqOf n) then s.setRing n fun r => { r with stalled := some (data, o) }
      else
        let s := s.setRing n fun r => { r with stalled := none }
        let s := if d.fault || d.poisoned then s
          else if d.len = 0 then (if d.bind = 1 then s.streamBytes n d [] else s)
          else s.moveData n d data o
        let (result, s) := s.moveResult d o
        (s.writeBack n d status result).issue

/-- DESC_WRITEBACK (R541): the bursts of the oldest descriptor go through the buffer, and it completes; a ring that waits for its completion
queue writes back nothing (R558). -/
def State.descWriteback (s : State) (n : Nat) (data : List Byte) (o : MoveRep) : State :=
  if (s.ringOf n).stalled.isSome then s else (State.runEngine s.burstsLeft s n).complete n data o

/-- DESC_WRITEBACK (R541). -/
def execDescWriteback (ring : Fin 32) (data : List Byte) (rep : MoveRep) (s : State) : Host.Outcome State Fault Refusal :=
  .next (settle s (s.descWriteback ring data rep))

/-- R558: rings that wait for queue `q` write back again, in ring number. -/
def State.cqRetry (s : State) (q : Nat) : State :=
  (List.range 32).foldl (fun s n =>
    match (s.ringOf n).stalled with
    | some (data, o) => if s.cqOf n = q then s.complete n data o else s
    | none => s) s

/-- CQ_ROOM: host software moves CQ_HEAD of a queue on (R558, R560). -/
def State.cqRoom (s : State) (q head : Nat) : State := (s.setReg (DMA.CQ_HEAD q) head).cqRetry q

/-- CQ_ROOM (R558). -/
def execCqRoom (queue : Fin 8) (head : BitVec 16) (s : State) : Host.Outcome State Fault Refusal :=
  .next (settle s ((s.wakeEvent wakeREGISTER).cqRoom queue head.toNat))

/-- R560: an accepted commit of a completion queue's group; a ring that waited for the queue finds it empty (R558). -/
def State.cqCommitted (s : State) (q : Nat) : State :=
  let s := (s.setReg (DMA.CQ_TAIL q) 0).setReg (DMA.CQ_HEAD q) 0
  ({ s with dma := { s.dma with phase := s.dma.phase.set q true } } : State).cqRetry q

/-- R561: an accepted commit of a ring's group. -/
def State.ringCommitted (s : State) (n : Nat) : State :=
  s.setRing n fun r => { r with head := 0, waiting := false, reading := false, halted := false }

/-! ### The link (R537, R538) -/

/-- The compressor jobs whose descriptors ring `n` carried go on, but give their outcome to none (R101, R537). -/
def State.cmpAbandon (s : State) (n : Nat) : State :=
  { s with cmp := s.cmp.map fun u => { u with run := u.run.map fun j => if j.ring = some n then { j with ring := none } else j } }

/-- R537: one ring at a loss of the link. -/
def State.ringLinkDown (s : State) (n : Nat) : State :=
  let s := s.setRing n fun r => { r with
    head := match r.taken.head? with
      | none => r.head
      | some d => d.index
    taken := [], stalled := none, reading := false, doorbell := false }
  let s : State := { s with dma := { s.dma with flightRead := s.dma.flightRead.filter (· != n), flightWrite := s.dma.flightWrite.filter (· != n) } }
  ((s.cmpAbandon n).ringHalt n).streamHalt n

/-- R537: the Data Link Layer reports the link down. -/
def State.linkDown (s : State) : State :=
  let was := bit s.host.link 31
  let s : State := { s with host := { s.host with link := 0 } }
  let s := (s.error pHOST E.LINK_DOWN []).bump HOST.LINK_DOWNS 1
  let s := (List.range 32).foldl State.ringLinkDown s
  if was then s.raise pHOST 2 else s

/-- LINK_DOWN (R537). -/
def execLinkDown (s : State) : Host.Outcome State Fault Refusal := .next (settle s s.linkDown)

/-- R537: the link is up again. -/
def State.linkUp (s : State) (width speed : Nat) : State :=
  let was := bit s.host.link 31
  let s : State := { s with host := { s.host with link := 2 ^ 31 + width * 2 ^ 16 + speed } }
  if was then s else s.raise pHOST 2

/-- PCIE_LINK_UP (R537). -/
def execPcieLinkUp (width : BitVec 6) (speed : BitVec 3) (s : State) : Host.Outcome State Fault Refusal :=
  .next (settle s (s.linkUp width.toNat speed.toNat))

/-- POISONED: a posted request received with EP is dropped (R538). -/
def execPoisoned (s : State) : Host.Outcome State Fault Refusal := .next (settle s s.poisonedTlp)

/-! ### MSI-X (R534) -/

/-- The 32-bit words of an MSI-X table entry. -/
def MsixEntry.word (e : MsixEntry) : Nat → Word
  | 0 => e.addrLo
  | 1 => e.addrHi
  | 2 => e.data
  | _ => if e.masked then 1 else 0

/-- A table entry with one of its words written. -/
def MsixEntry.put (e : MsixEntry) (i : Nat) (v : Word) : MsixEntry :=
  match i with
  | 0 => { e with addrLo := v &&& 0xFFFFFFFC }
  | 1 => { e with addrHi := v }
  | 2 => { e with data := v }
  | _ => { e with masked := v.getLsbD 0 }

/-- Unmasking a vector whose pending bit is set sends its message. -/
def State.msixPending (s : State) (v : Nat) : State :=
  if s.irq.pba.contains v && !(s.irq.table.getD v {}).masked then
    ({ s with irq := { s.irq with pba := s.irq.pba.erase v } } : State).sendVector v
  else s

/-- A word of the pending bit array. -/
def State.pbaWord (s : State) (i : Nat) : Nat := s.irq.pba.foldl (fun n v => if v / 32 = i then n ||| 2 ^ (v % 32) else n) 0

/-- An access to BAR4: the table at 0, the pending bit array at 0x2000, and nothing elsewhere (R534). -/
def State.msixAccess (s : State) (o : Nat) (write : Option Word) : State :=
  let v := o / 16
  let i := o % 16 / 4
  match write with
  | some w =>
    if v < 64 then ({ s with irq := { s.irq with table := modAt s.irq.table v fun e => e.put i w } } : State).msixPending v else s
  | none =>
    let x := if v < 64 then ((s.irq.table.getD v {}).word i).toNat
             else if 0x2000 ≤ o ∧ o < 0x2008 then s.pbaWord ((o - 0x2000) / 4) else 0
    { s with host := { s.host with data := leBytes 4 x, ep := false } }

/-- MSIX_TABLE_ACCESS (R534). -/
def execMsixTableAccess (offset : BitVec 14) (write : Option Word) (s : State) : Host.Outcome State Fault Refusal :=
  .next (settle s (s.msixAccess offset.toNat write))

/-- A configuration write (R533, R613); before READY it is answered with Configuration Request Retry Status (R650). -/
def State.configAccess (s : State) (op : ConfigOp) : State :=
  if !s.power.ready then s.emit .configRetry
  else
    let s := match op with
      | .power false => if s.host.d3hot then s.wakeEvent wakeD3_EXIT else s
      | _ => s
    { s with host := match op with
      | .power d3 => { s.host with d3hot := d3 }
      | .maxPayload c => { s.host with maxPayload := 128 * 2 ^ c.val }
      | .maxRead c => { s.host with maxRead := 128 * 2 ^ c.val }
      | .ecrc g c => { s.host with ecrcGen := g, ecrcCheck := c } }

/-- CONFIG_ACCESS (R613). -/
def execConfigAccess (op : ConfigOp) (s : State) : Host.Outcome State Fault Refusal := .next (settle s (s.configAccess op))

/-! ### Registers (R560, R561) -/

/-- R542: a ring that LETTER_RINGS no longer names parses anew at the first MAIL descriptor taken after the change; the letter in progress is
discarded there. -/
def State.lettersRebound (s : State) (old new : Nat) : State :=
  (List.range 32).foldl (fun s n => if bit old n && !bit new n then s.setRing n fun r => { r with restart := true } else s) s

/-- A write of a DMA register, after the store of its bits. -/
def State.writeDma (s : State) (a v : Nat) : State :=
  if a = DMA.SOFT_REQ then s.softReq v
  else if a = DMA.BUF_CFG then s.issue
  else if DMA.CQ_HEAD 0 ≤ a ∧ a < DMA.CQ_HEAD 8 ∧ (a - DMA.CQ_HEAD 0) % 0x20 = 0 then s.cqRetry ((a - DMA.CQ_HEAD 0) / 0x20)
  else s

/-- A write of a RING register, after the store of its bits. -/
def State.writeRing (s : State) (n a v : Nat) : State :=
  if a = RING.DOORBELL n then (if bit v 8 then s.doorbell n else s)
  else if a = CTRL (pRING n) then (if bit v 1 then s.ringResume n else s)
  else if a = RING.PACE n then s.issue
  else s

/-- What a read of a derived DMA register returns. -/
def State.readDma (s : State) (a : Nat) : Option Nat :=
  if a = DMA.BUF_USED then some (s.bufUsed false * 2 ^ 16 + s.bufUsed true) else none

/-- What a read of a derived RING register returns. -/
def State.readRing (s : State) (n a : Nat) : Option Nat :=
  let r := s.ringOf n
  if a = RING.HEAD n then some r.head
  else if a = RING.INFLIGHT n then some r.taken.length
  else if a = RING.PACE_PEND n then some r.pacePend
  else if a = STATUS (pRING n) then
    some (s.reg a + s.bindOf n * 256 + (if r.halted then 32 else 0) + if r.waiting then 16 else 0)
  else none

end Sys2Proof.Machine
end

