-- ==== Sys2Proof/Machine/Check.lean ====
section
/-! DEFINITION. Check values: the folding of R563 and the presets of R564 (CRC-32C of R92, CRC-8 of R280, CRC-16 of R371), and AES-256-GMAC
of R59 as FIPS 197 and NIST SP 800-38D define it (log 5). -/

namespace Sys2Proof.Machine

/-- Parameters of a check unit (R563). -/
structure CrcParams where
  w : Nat
  poly : Nat
  init : Nat
  refIn : Bool
  refOut : Bool
  xorOut : Nat
  deriving DecidableEq, Repr

/-- Bits [w-1:0] of x in reverse order (R563). -/
def reflect : Nat → Nat → Nat
  | 0, _ => 0
  | w + 1, x => x % 2 * 2 ^ w + reflect w (x / 2)

/-- One bit of a byte folded with reflected input (R563); `rp` is the reflected polynomial. -/
def foldBitRef (rp run b i : Nat) : Nat :=
  if (run ^^^ (b >>> i)) % 2 = 1 then (run >>> 1) ^^^ rp else run >>> 1

/-- One bit of a byte folded without reflection (R563). -/
def foldBitStd (w poly run b i : Nat) : Nat :=
  let sh := (run <<< 1) % 2 ^ w
  if ((run >>> (w - 1)) ^^^ (b >>> i)) % 2 = 1 then sh ^^^ poly else sh

/-- fold(b) of R563. -/
def crcFold (p : CrcParams) (run : Nat) (b : Byte) : Nat :=
  if p.refIn then
    let rp := reflect p.w (p.poly % 2 ^ p.w)
    (List.range 8).foldl (fun r i => foldBitRef rp r b.toNat i) run
  else (List.range 8).foldl (fun r i => foldBitStd p.w (p.poly % 2 ^ p.w) r b.toNat (7 - i)) run

/-- start(FRESH) of R563. -/
def crcStart (p : CrcParams) : Nat := p.init % 2 ^ p.w

/-- result() of R563. -/
def crcResult (p : CrcParams) (run : Nat) : Nat :=
  ((if p.refIn != p.refOut then reflect p.w run else run) ^^^ p.xorOut) % 2 ^ p.w

/-- The check value of a byte sequence. -/
def crc (p : CrcParams) (bs : List Byte) : Nat := crcResult p (bs.foldl (crcFold p) (crcStart p))

/-- Presets of R564: 1 CRC32C, 2 CRC32, 3 CRC64, 4 CRC16, 5 CRC8. -/
def crcPreset : Nat → CrcParams
  | 1 => ⟨32, 0x1EDC6F41, 0xFFFFFFFF, true, true, 0xFFFFFFFF⟩
  | 2 => ⟨32, 0x04C11DB7, 0xFFFFFFFF, true, true, 0xFFFFFFFF⟩
  | 3 => ⟨64, 0x42F0E1EBA9EA3693, 0xFFFFFFFFFFFFFFFF, true, true, 0xFFFFFFFFFFFFFFFF⟩
  | 4 => ⟨16, 0x1021, 0xFFFF, false, false, 0⟩
  | _ => ⟨8, 0x07, 0, false, false, 0⟩

/-- CRC-32C (R92). -/
def crc32c (bs : List Byte) : Nat := crc (crcPreset 1) bs
/-- CRC-16 of training frames (R371). -/
def crc16 (bs : List Byte) : Nat := crc (crcPreset 4) bs
/-- CRC-8 of REJECT records and fire markers (R280, R338). -/
def crc8 (bs : List Byte) : Nat := crc (crcPreset 5) bs

/-! ### AES-256 (FIPS 197) -/

/-- S-box. -/
def sbox : List Nat :=
  [0x63, 0x7c, 0x77, 0x7b, 0xf2, 0x6b, 0x6f, 0xc5, 0x30, 0x01, 0x67, 0x2b, 0xfe, 0xd7, 0xab, 0x76] ++
  [0xca, 0x82, 0xc9, 0x7d, 0xfa, 0x59, 0x47, 0xf0, 0xad, 0xd4, 0xa2, 0xaf, 0x9c, 0xa4, 0x72, 0xc0] ++
  [0xb7, 0xfd, 0x93, 0x26, 0x36, 0x3f, 0xf7, 0xcc, 0x34, 0xa5, 0xe5, 0xf1, 0x71, 0xd8, 0x31, 0x15] ++
  [0x04, 0xc7, 0x23, 0xc3, 0x18, 0x96, 0x05, 0x9a, 0x07, 0x12, 0x80, 0xe2, 0xeb, 0x27, 0xb2, 0x75] ++
  [0x09, 0x83, 0x2c, 0x1a, 0x1b, 0x6e, 0x5a, 0xa0, 0x52, 0x3b, 0xd6, 0xb3, 0x29, 0xe3, 0x2f, 0x84] ++
  [0x53, 0xd1, 0x00, 0xed, 0x20, 0xfc, 0xb1, 0x5b, 0x6a, 0xcb, 0xbe, 0x39, 0x4a, 0x4c, 0x58, 0xcf] ++
  [0xd0, 0xef, 0xaa, 0xfb, 0x43, 0x4d, 0x33, 0x85, 0x45, 0xf9, 0x02, 0x7f, 0x50, 0x3c, 0x9f, 0xa8] ++
  [0x51, 0xa3, 0x40, 0x8f, 0x92, 0x9d, 0x38, 0xf5, 0xbc, 0xb6, 0xda, 0x21, 0x10, 0xff, 0xf3, 0xd2] ++
  [0xcd, 0x0c, 0x13, 0xec, 0x5f, 0x97, 0x44, 0x17, 0xc4, 0xa7, 0x7e, 0x3d, 0x64, 0x5d, 0x19, 0x73] ++
  [0x60, 0x81, 0x4f, 0xdc, 0x22, 0x2a, 0x90, 0x88, 0x46, 0xee, 0xb8, 0x14, 0xde, 0x5e, 0x0b, 0xdb] ++
  [0xe0, 0x32, 0x3a, 0x0a, 0x49, 0x06, 0x24, 0x5c, 0xc2, 0xd3, 0xac, 0x62, 0x91, 0x95, 0xe4, 0x79] ++
  [0xe7, 0xc8, 0x37, 0x6d, 0x8d, 0xd5, 0x4e, 0xa9, 0x6c, 0x56, 0xf4, 0xea, 0x65, 0x7a, 0xae, 0x08] ++
  [0xba, 0x78, 0x25, 0x2e, 0x1c, 0xa6, 0xb4, 0xc6, 0xe8, 0xdd, 0x74, 0x1f, 0x4b, 0xbd, 0x8b, 0x8a] ++
  [0x70, 0x3e, 0xb5, 0x66, 0x48, 0x03, 0xf6, 0x0e, 0x61, 0x35, 0x57, 0xb9, 0x86, 0xc1, 0x1d, 0x9e] ++
  [0xe1, 0xf8, 0x98, 0x11, 0x69, 0xd9, 0x8e, 0x94, 0x9b, 0x1e, 0x87, 0xe9, 0xce, 0x55, 0x28, 0xdf] ++
  [0x8c, 0xa1, 0x89, 0x0d, 0xbf, 0xe6, 0x42, 0x68, 0x41, 0x99, 0x2d, 0x0f, 0xb0, 0x54, 0xbb, 0x16]

/-- S-box of one byte. -/
def subByte (b : Nat) : Nat := sbox.getD b 0

/-- Doubling in GF(2^8). -/
def xtime (b : Nat) : Nat := if b < 128 then 2 * b else (2 * b % 256) ^^^ 0x1b

/-- XOR of two byte lists. -/
def xorBytes (a b : List Nat) : List Nat := List.zipWith (· ^^^ ·) a b

/-- One word of the key schedule from the words before it, in reverse order. -/
def keyWord (i : Nat) (ws : List (List Nat)) : List Nat :=
  let t := ws.getD 0 []
  let old := ws.getD 7 []
  if i % 8 = 0 then
    let r := (t.drop 1 ++ t.take 1).map subByte
    xorBytes old (xorBytes r [Nat.repeat xtime (i / 8 - 1) 1, 0, 0, 0])
  else if i % 8 = 4 then xorBytes old (t.map subByte)
  else xorBytes old t

/-- The 60 words of the AES-256 key schedule. -/
def keySchedule (key : List Nat) : List (List Nat) :=
  let w0 := (List.range 8).map fun i => (key.drop (4 * i)).take 4
  ((List.range 52).foldl (fun ws i => keyWord (i + 8) ws :: ws) w0.reverse).reverse

/-- ShiftRows on 16 bytes in column order. -/
def shiftRows (st : List Nat) : List Nat := (List.range 16).map fun i => st.getD ((i + 4 * (i % 4)) % 16) 0

/-- MixColumns of one column. -/
def mixColumn (c : List Nat) : List Nat :=
  (List.range 4).map fun i =>
    let a := c.getD i 0
    let b := c.getD ((i + 1) % 4) 0
    xtime a ^^^ (xtime b ^^^ b) ^^^ c.getD ((i + 2) % 4) 0 ^^^ c.getD ((i + 3) % 4) 0

/-- MixColumns. -/
def mixColumns (st : List Nat) : List Nat := (List.range 4).flatMap fun i => mixColumn ((st.drop (4 * i)).take 4)

/-- Round key r. -/
def roundKey (ks : List (List Nat)) (r : Nat) : List Nat := ((ks.drop (4 * r)).take 4).flatten

/-- AES-256 of one 16-byte block. -/
def aes256 (key block : List Nat) : List Nat :=
  let ks := keySchedule key
  let st := (List.range 13).foldl (fun st r => xorBytes (mixColumns (shiftRows (st.map subByte))) (roundKey ks (r + 1)))
    (xorBytes block (roundKey ks 0))
  xorBytes (shiftRows (st.map subByte)) (roundKey ks 14)

/-! ### GMAC (NIST SP 800-38D) -/

/-- Big-endian number of a byte list. -/
def beNat (bs : List Nat) : Nat := bs.foldl (fun n b => n * 256 + b) 0

/-- 16 big-endian bytes. -/
def beBytes16 (v : Nat) : List Nat := (List.range 16).map fun i => v / 256 ^ (15 - i) % 256

/-- Product in GF(2^128), bit 0 of the standard being the most significant. -/
def ghashMul (x y : Nat) : Nat :=
  ((List.range 128).foldl (fun (zv : Nat × Nat) i =>
    let z := if bit x (127 - i) then zv.1 ^^^ zv.2 else zv.1
    let v := if zv.2 % 2 = 1 then (zv.2 / 2) ^^^ (0xe1 * 2 ^ 120) else zv.2 / 2
    (z, v)) (0, y)).1

/-- GHASH over whole 16-byte blocks. -/
def ghash (h : Nat) (n : Nat) (bs : List Nat) : Nat :=
  (List.range n).foldl (fun y i => ghashMul (y ^^^ beNat (((bs.drop (16 * i)).take 16) ++ List.replicate (16 - ((bs.drop (16 * i)).take 16).length) 0)) h) 0

/-- The 16-byte AES-256-GMAC tag of additional data under a 32-byte key and a 12-byte initialisation vector (R59). -/
def gmac (key iv aad : List Byte) : List Byte :=
  let k := key.map (·.toNat)
  let a := aad.map (·.toNat)
  let h := beNat (aes256 k (List.replicate 16 0))
  let s := ghashMul (ghash h (ceilDiv a.length 16) a ^^^ (a.length * 8 * 2 ^ 64)) h
  (xorBytes (aes256 k (iv.map (·.toNat) ++ [0, 0, 0, 1])) (beBytes16 s)).map (BitVec.ofNat 8)

end Sys2Proof.Machine
end

