-- ==== Sys2Proof/Machine/Wire.lean ====
section
/-! DEFINITION. Bytes on the head lanes: segment prefixes, seals and packing (R270, R330, R331), and fire markers (R338). -/

namespace Sys2Proof.Machine

/-- The 16-byte prefix (R270). -/
def SegData.headBytes (d : SegData) : List Byte :=
  leBytes 4 d.job ++ leBytes 6 d.line ++ leBytes 1 d.row ++ leBytes 1 d.strip ++ leBytes 1 d.mode ++ leBytes 3 0

/-- The 4,096 codes, one byte each. -/
def SegData.codeBytes (d : SegData) : List Byte := if d.codes.isEmpty then List.replicate 4096 0 else d.codes

/-- The seal (R270). -/
def SegData.sealOf (d : SegData) : Nat := crc32c (d.headBytes ++ d.codeBytes)

/-- Four 6-bit codes fill three bytes (R331). -/
def packSix : List Byte → List Byte
  | a :: b :: c :: d :: rest => leBytes 3 (a.toNat % 64 + b.toNat % 64 * 2 ^ 6 + c.toNat % 64 * 2 ^ 12 + d.toNat % 64 * 2 ^ 18) ++ packSix rest
  | _ => []

/-- The bytes of a segment before it is cut into codewords (R330, R331). -/
def SegData.bytes (d : SegData) : List Byte :=
  let body := d.headBytes ++ (if d.mode = 1 then d.codeBytes else packSix d.codeBytes) ++ leBytes 4 d.sealOf
  body ++ List.replicate (640 * (if d.mode = 1 then 7 else 5) - body.length) 0

/-- SYNC of a fire marker (R338). -/
def markerSync : Nat := 0xD5C36A1F0E97B24C

/-- The 128 bits of the fire marker of line time `v`, with the delays of its rows (R338). -/
def markerBits (v : Nat) (delays : List Nat) : Nat :=
  let body := leBytes 2 v ++ (List.range 5).map fun k => BitVec.ofNat 8 (delays.getD k 0)
  leNat (leBytes 8 markerSync ++ body ++ leBytes 1 (crc8 body))

end Sys2Proof.Machine
end

