-- ==== Sys2Proof/Machine/Codec.lean ====
section
/-! DEFINITION. Line coding of the serial lanes: the code RS(544,514), the scrambler, codeword headers, PAM4 levels and precoding, and training
frames (R324 to R328, R332, R338, R359, R360, R371, R373, R391). Polynomials over GF(2^10) are lists of coefficients, lowest power first. -/

namespace Sys2Proof.Machine

/-! ### The field (R324) -/

/-- a times α, where α is a root of x^10 + x^3 + 1 (R324). -/
def gfDouble (a : Nat) : Nat := if a < 512 then 2 * a else (2 * a) ^^^ 0x409

/-- The product of two elements: `n` bits of `b` are left to take. -/
def gfMulGo : Nat → Nat → Nat → Nat → Nat
  | 0, _, _, acc => acc
  | n + 1, a, b, acc => gfMulGo n (gfDouble a) (b / 2) (if b % 2 = 1 then acc ^^^ a else acc)

/-- The product of two elements of the field; 0 at once where one is 0. -/
def gfMul (a b : Nat) : Nat := if a = 0 ∨ b = 0 then 0 else gfMulGo 10 a b 0

/-- The first `n` powers of `x`, from `x^0`. -/
def gfPowers (x : Nat) : Nat → Nat → List Nat
  | 0, _ => []
  | n + 1, p => p :: gfPowers x n (gfMul p x)

/-- α to the power `n`. -/
def gfAlpha : Nat → Nat
  | 0 => 1
  | n + 1 => gfDouble (gfAlpha n)

/-- The inverse of an element: its power 1,022. -/
def gfInv (a : Nat) : Nat :=
  ((List.range 9).foldl (fun (r : Nat × Nat) _ => let sq := gfMul r.1 r.1; (sq, gfMul r.2 sq)) (a, 1)).2

/-! ### The code RS(544,514) (R324) -/

/-- Sum of two polynomials. -/
def polyAdd : List Nat → List Nat → List Nat
  | [], q => q
  | p, [] => p
  | a :: p, b :: q => (a ^^^ b) :: polyAdd p q

/-- A polynomial times an element. -/
def polyScale (c : Nat) (p : List Nat) : List Nat := p.map (gfMul c)

/-- The value of a polynomial. -/
def polyEval (p : List Nat) (x : Nat) : Nat := p.foldr (fun c acc => gfMul acc x ^^^ c) 0

/-- The generator: the product of (x - α^j) for j from 0 to 29. -/
def rsGenerator : List Nat := (gfPowers 2 30 1).foldl (fun p a => polyAdd (0 :: p) (polyScale a p)) [1]

/-- The generator without its leading term, highest power first. -/
def rsTaps : List Nat := (rsGenerator.take 30).reverse

/-- One message symbol enters the division by the generator; the remainder has its highest power first. -/
def rsStep (taps rem : List Nat) (m : Nat) : List Nat :=
  let f := m ^^^ rem.headD 0
  polyAdd (rem.drop 1 ++ [0]) (polyScale f taps)

/-- Parity symbols 514 to 543 of 514 message symbols. -/
def rsParity (msg : List Nat) : List Nat := msg.foldl (rsStep rsTaps) (List.replicate 30 0)

/-- The 544 symbols of a codeword. -/
def rsEncode (msg : List Nat) : List Nat := msg ++ rsParity msg

/-- Syndrome `j` of received symbols: their polynomial at α^j. -/
def rsSyndromes (w : List Nat) : List Nat := (gfPowers 2 30 1).map fun a => w.foldl (fun acc r => gfMul acc a ^^^ r) 0

/-- The search for the error locator: the locator, the last one before its length grew, its length, the shift since then, and the discrepancy
then. -/
structure Locator where
  cur : List Nat := [1]
  old : List Nat := [1]
  len : Nat := 0
  shift : Nat := 1
  disc : Nat := 1

/-- One syndrome enters the search (Berlekamp and Massey). -/
def Locator.step (syn : List Nat) (l : Locator) (n : Nat) : Locator :=
  let d := ((List.range (l.len + 1)).map fun i => gfMul (l.cur.getD i 0) (syn.getD (n - i) 0)).foldl (· ^^^ ·) 0
  if d = 0 then { l with shift := l.shift + 1 }
  else
    let next := polyAdd l.cur (List.replicate l.shift 0 ++ polyScale (gfMul d (gfInv l.disc)) l.old)
    if 2 * l.len ≤ n then { cur := next, old := l.cur, len := n + 1 - l.len, shift := 1, disc := d }
    else { l with cur := next, shift := l.shift + 1 }

/-- The error at a place of the codeword whose power is `x`, and `y` its inverse, by the locator and its evaluator (Forney): none where the
locator has no root. -/
def rsError (loc eval : List Nat) (x y : Nat) : Nat :=
  if polyEval loc y ≠ 0 then 0
  else
    let odd := (loc.drop 1).zipIdx.map fun c => if c.2 % 2 = 0 then c.1 else 0
    gfMul x (gfMul (polyEval eval y) (gfInv (polyEval odd y)))

/-- The errors of 544 received symbols, by the syndromes. -/
def rsErrors (syn : List Nat) : List Nat :=
  let l := (List.range 30).foldl (Locator.step syn) {}
  let eval := (List.range 30).map fun n =>
    ((List.range (n + 1)).map fun i => gfMul (l.cur.getD i 0) (syn.getD (n - i) 0)).foldl (· ^^^ ·) 0
  (List.zipWith (rsError l.cur eval) (gfPowers 2 544 1) (gfPowers (gfInv 2) 544 1)).reverse

/-- The decoder: the 514 message symbols and how many of the 544 symbols were wrong, or none for a codeword with more than 15 errors (R324,
R329). What it answers is always a codeword within 15 symbols of what was received. -/
def rsDecode (w : List Nat) : Option (List Nat × Nat) :=
  let syn := rsSyndromes w
  if syn.all (· == 0) then some (w.take 514, 0)
  else
    let errs := rsErrors syn
    let n := (errs.filter (· != 0)).length
    let fixed := List.zipWith (· ^^^ ·) w errs
    if decide (n ≤ 15) && (rsSyndromes fixed).all (· == 0) then some (fixed.take 514, n) else none

/-! ### The scrambler and the message bits (R325, R326) -/

/-- One bit of the scrambler: its register, the bits so far and their number (R326). -/
def scramblerStep (r : Nat × Nat) (i : Nat) : Nat × Nat :=
  let out := (r.1 / 2 ^ 30 + r.1 / 2 ^ 27) % 2
  ((2 * r.1 + out) % 2 ^ 31, r.2 + out * 2 ^ i)

/-- The 5,140 bits that the scrambler gives for each codeword, bit 0 first (R326). -/
def scramblerBits : Nat := ((List.range 5140).foldl scramblerStep (2 ^ 31 - 1, 0)).2

/-- `n` symbols of 10 bits, the lowest first (R325). -/
def symbolsOf : Nat → Nat → List Nat
  | 0, _ => []
  | n + 1, v => v % 1024 :: symbolsOf n (v / 1024)

/-- The number whose symbols these are (R325). -/
def symbolsNat : List Nat → Nat
  | [] => 0
  | a :: l => a + 1024 * symbolsNat l

/-- The bytes that a codeword carries: 640 of them (R325), of a segment those of its PART (R332). -/
def Content.toBytes : Content → List Byte
  | .bytes bs => bs ++ List.replicate (640 - bs.length) 0
  | .part d p => (d.bytes.drop (640 * p)).take 640

/-- The 544 symbols of the codeword of a header and content (R324 to R326). -/
def codewordSymbols (header : Nat) (content : List Byte) : List Nat :=
  rsEncode (symbolsOf 514 ((header + leNat content * 2 ^ 20) ^^^ scramblerBits))

/-- What 544 received symbols carry: header, content and wrong symbols (R324 to R326, R329). -/
def codewordOf (symbols : List Nat) : Option (Nat × List Byte × Nat) :=
  match rsDecode symbols with
  | none => none
  | some (msg, n) =>
    let m := symbolsNat msg ^^^ scramblerBits
    some (m % 2 ^ 20, leBytes 640 (m / 2 ^ 20), n)

/-! ### Headers (R327, R391) -/

/-- TYPE of a codeword. -/
def tyDATA : Nat := 0
def tyFILL : Nat := 1
def tyIDLE : Nat := 2
def tyCONTROL : Nat := 3

/-- A header on a head lane (R327). -/
def headHeader (type row part : Nat) (last : Bool) (lt : Nat) : Nat :=
  type * 2 ^ 18 + row * 2 ^ 15 + part * 2 ^ 12 + (if last then 2 ^ 11 else 0) + lt % 2 ^ 10

/-- A header on a peer lane (R391). -/
def peerHeader (type seq ack : Nat) : Nat := type * 2 ^ 18 + seq * 2 ^ 9 + ack

/-- TYPE, SEQ and ACK of a header (R327, R391). -/
def hdrType (h : Nat) : Nat := bits h 19 18
def hdrSeq (h : Nat) : Nat := bits h 17 9
def hdrAck (h : Nat) : Nat := bits h 8 0

/-- TYPE and reserved bits of a header are valid (R329): bit 10 of a head lane's is 0 (R327), and a peer lane has no TYPE 0b11 (R391). -/
def headerValid (lane h : Nat) : Bool := if lane < 18 then !bit h 10 else hdrType h != 3

/-! ### Levels (R359, R360) -/

/-- The Gray symbol of a bit pair, the earlier bit the more significant (R359). -/
def grayOf (early late : Nat) : Nat := 2 * early + (early + late) % 2

/-- The Gray symbols of a 10-bit symbol, bit 0 first (R325, R359). -/
def symbolGray (v : Nat) : List Nat := (List.range 5).map fun k => grayOf (v / 4 ^ k % 2) (v / 4 ^ k / 2 % 2)

/-- The precoder (R360): from the last symbol sent. -/
def precoded : Nat → List Nat → List Nat
  | _, [] => []
  | p, g :: l => let q := (g + 4 - p) % 4; q :: precoded q l

/-- The receiver's side of the precoder (R360): from the last level received. -/
def unprecoded : Nat → List Nat → List Nat
  | _, [] => []
  | r0, r :: l => (r + r0) % 4 :: unprecoded r l

/-- Symbols as a lane sends them. -/
def Pam.symbols (m : Pam) (g : List Nat) : List Nat := if m.precode then precoded m.last g else g
/-- Levels at the balls, with the pair inverted where LCFG says so (R359, R389). -/
def Pam.levels (m : Pam) (g : List Nat) : List Nat := (m.symbols g).map fun x => if m.invert then 3 - x else x

/-- The 2,720 Gray symbols of a codeword (R325, R359). -/
def codewordGray (header : Nat) (content : Content) : List Nat := (codewordSymbols header content.toBytes).flatMap symbolGray
/-- The 2,720 levels of a codeword (R325, R359, R360). -/
def codewordLevels (header : Nat) (content : Content) (m : Pam) : List Nat := m.levels (codewordGray header content)
/-- The levels of the rest of a codeword that a marker word pre-empts after `k` words, in the state that the marker word leaves (R338, R360). -/
def resumedLevels (header : Nat) (content : Content) (k : Nat) (m : Pam) : List Nat := m.levels ((codewordGray header content).drop (80 * k))
/-- One of the 34 words of 80 UI of a codeword (R325). -/
def codewordWord (levels : List Nat) (w : Nat) : List Nat := (levels.drop (80 * w)).take 80

/-- The 80 Gray symbols of a marker word of 160 bits, bit 0 first (R338, R359). -/
def markerGray (word : Nat) : List Nat := (symbolsOf 16 word).flatMap symbolGray

/-- The bits of a Gray symbol: the earlier one first. -/
def ungray (g : Nat) : Nat := g / 2 + 2 * ((g / 2 + g) % 2)

/-- 10-bit symbols from Gray symbols, five each (R325, R359); `n` bounds them. -/
def graySymbols : Nat → List Nat → List Nat
  | 0, _ => []
  | n + 1, l => (l.take 5).foldr (fun g v => ungray g + 4 * v) 0 :: graySymbols n (l.drop 5)

/-- Received levels of a codeword, with an inverted pair put right and precoding undone (R360, R374): what they carry, and the last level. -/
def received (inv pre : Bool) (last : Nat) (levels : List Nat) : Option (Nat × List Byte × Nat) × Nat :=
  let r := levels.map fun x => if inv then 3 - x else x
  (codewordOf (graySymbols 544 (if pre then unprecoded last r else r)), r.getLastD last)

/-- The marker word of R338: the 128 bits of the marker, then the guard. -/
def markerWord (marker : Nat) : Nat := marker + 0xA5A5A5A5 * 2 ^ 128

/-! ### Training frames (R371, R373) -/

/-- One bit of the PRBS13 generator x^13 + x^12 + x^2 + x + 1, in the form in which R326 gives the scrambler (DEDUCED, log 78). -/
def prbsStep (r : Nat) : Nat × Nat :=
  let out := (r / 2 ^ 12 + r / 2 ^ 11 + r / 2 + r) % 2
  (out, (2 * r + out) % 2 ^ 13)

/-- `n` Gray symbols of the pattern (R373). -/
def prbsGray : Nat → Nat → List Nat
  | 0, _ => []
  | n + 1, r =>
    let a := prbsStep r
    let b := prbsStep a.2
    grayOf a.1 b.1 :: prbsGray n b.2

/-- The pattern of a frame of transmitter TX_ID (R373). -/
def prbsPattern (txId : Nat) : List Nat := prbsGray 2640 ((txId + 1) * 0x155 % 2 ^ 13)

/-- Bits of a number as PAM2 levels, bit 0 first (R371). -/
def pam2 (n v : Nat) : List Nat := (List.range n).map fun i => 3 * (v / 2 ^ i % 2)

/-- The check of a training frame: CRC-16 over its six field bytes (R371). -/
def frameCheck (fields : Nat) : Nat := crc16 (leBytes 6 fields)

/-- The 2,720 levels of a training frame: marker, fields, check and pattern (R371). -/
def trainingLevels (fields : Nat) : List Nat :=
  List.replicate 8 3 ++ List.replicate 8 0 ++ pam2 48 fields ++ pam2 16 (frameCheck fields) ++ prbsPattern (bits fields 32 28)

end Sys2Proof.Machine
end

