-- ==== Sys2Proof/Machine/PeerOps.lean ====
section
/-! DEFINITION. What every lane sends and searches for (R328, R329, R360, R363, R382), and queuing, routing and sending peer messages (R391,
R397 to R404). -/

namespace Sys2Proof.Machine

/-- The device's own number (R19). -/
def State.deviceNo (s : State) : Nat := bits (s.active CHIP.DEVICE) 9 0
/-- POS, LEN and COLLECT of the active CHAIN_CFG (R408). -/
def State.chainPos (s : State) : Nat := bits (s.active PEER.CHAIN_CFG) 3 0
def State.chainLen (s : State) : Nat := bits (s.active PEER.CHAIN_CFG) 8 4
def State.chainCollect (s : State) : Nat := bits (s.active PEER.CHAIN_CFG) 21 12

/-- Lane `n`. -/
def State.laneOf (s : State) (n : Nat) : Lane := s.lanes.lane.getD n {}
/-- Lane `n` changed. -/
def State.setLane (s : State) (n : Nat) (f : Lane → Lane) : State := { s with lanes := { s.lanes with lane := modAt s.lanes.lane n f } }
/-! ### Codewords that a lane sends (R324 to R328, R360) -/

/-- How lane `n` sends (R360, R368): TX_INV inverts in BLIND mode. -/
def State.pamOf (s : State) (n : Nat) : Pam :=
  let l := s.laneOf n
  { precode := l.precodeTx, last := l.txLast, invert := !l.detect && bit l.cfg 12 }

/-- The last symbol that a lane has sent after these Gray symbols; without precoding nothing depends on it. -/
def Pam.lastOf (m : Pam) (g : List Nat) : Nat := if m.precode then (m.symbols g).getLastD m.last else m.last

/-- One codeword goes out on a lane and takes a position (R328). -/
def State.sendOne (s : State) (n header : Nat) (c : Content) : State :=
  let m := s.pamOf n
  (s.emit (.codeword n header c m)).setLane n fun l =>
    { l with txPos := (l.txPos + 1) % 1024, txLast := m.lastOf (codewordGray header c), txWord := some (header, c, m) }

/-- The header of a FILL codeword (R327, R391). -/
def State.fillHeader (s : State) (n : Nat) : Nat := if n < 18 then headHeader tyFILL 0 0 false s.lineTime else peerHeader tyFILL 0 0

/-- A FILL codeword: content bytes of 0 (R328). -/
def State.sendFill (s : State) (n : Nat) : State := s.sendOne n (s.fillHeader n) (.bytes [])

/-- The next position is the one that carries a FILL (R328). -/
def State.fillDue (s : State) (n : Nat) : Bool := (s.laneOf n).txPos == 1023 && (s.laneOf n).tstate == 6

/-- A codeword goes out on a lane, after the FILL of position 1,023 where that is due (R328). -/
def State.sendCodeword (s : State) (n header : Nat) (c : Content) : State := (if s.fillDue n then s.sendFill n else s).sendOne n header c

/-- An IDLE codeword of a lane, and the count of those since ALIGN (R328, R392). -/
def State.sendIdle (s : State) (n header : Nat) (c : List Byte) : State :=
  (s.sendCodeword n header (.bytes c)).setLane n fun l => { l with idles := if l.tstate = 6 then (l.idles + 1) % 2 ^ 32 else 0 }

/-- An IDLE codeword on a head lane (R327, R328): the count in content bytes 0 to 3 does not include the codeword itself (DESIGN CHOICE, log 75). -/
def State.headIdle (s : State) (n : Nat) : State := s.sendIdle n (headHeader tyIDLE 0 0 false s.lineTime) (leBytes 4 (s.laneOf n).idles)

/-! ### Receivers (R329, R363, R382) -/

/-- A lock search begins with the thresholds that LINK_CFG holds then (R353, R408). -/
def State.seekLock (s : State) (n : Nat) : State :=
  let cfg := s.reg (if n < 18 then JLINK.LINK_CFG else PEER.LINK_CFG)
  s.setLane n fun l => { l with rxLock := false, goodRun := 0, badRun := 0, linkCfg := cfg }

/-- LOCK_GOOD and LOCK_BAD of the lane's search: 0 acts as 1 (R329). -/
def State.lockGood (s : State) (n : Nat) : Nat := max 1 (bits (s.laneOf n).linkCfg 3 0)
def State.lockBad (s : State) (n : Nat) : Nat := max 1 (bits (s.laneOf n).linkCfg 7 4)

/-- R607: lanes that are up in DOZE or NAP are in low-power idle: their DFE samplers are off, and only the MAIN tap of their transmitters is not 0. -/
def State.lowPower (s : State) : Bool := s.power.st == 2 || s.power.st == 3

/-- R382: the receiver of a lane adapts its CTLE and DFE; the values are the receiver's own (log 3). -/
def State.adapt (s : State) (n : Nat) : State :=
  if s.lowPower then s else
  let vs := (List.range 13).map fun i => (Config.freeWord (s.free + i)).toNat
  ({ s with free := s.free + 13 } : State).setLane n fun l => { l with eq := vs }

/-- R363, R365: content is lost at a lane's receive queue or elastic buffer. -/
def State.elasticDrop (s : State) (n : Nat) : State :=
  ((s.bump (LANE.ELASTIC_DROPS n) 1).error pLANE E.ELASTIC_OVERFLOW [.f 1 n]).raise pLANE 4

/-- A lane is powered down: its link state is OFF, but for a lane that is LOST or FAILED, which only a restart leaves (R322, R368, R394). What the
equaliser has adapted to stays, and what the latest LINK message reported (R353). -/
def Lane.down (l : Lane) : Lane := { link := if 5 ≤ l.link then l.link else 0, eq := l.eq, headLock := l.headLock }

/-- Side `d`: 0 WEST, 1 EAST. -/
def State.sideOf (s : State) (d : Nat) : Side := s.peers.side.getD d {}
/-- Side `d` changed. -/
def State.setSide (s : State) (d : Nat) (f : Side → Side) : State := { s with peers := { s.peers with side := modAt s.peers.side d f } }

/-- First lane of a side (R355). -/
def sideBase (d : Nat) : Nat := 18 + 3 * d
/-- Lanes of a side in link state `st`. -/
def State.sideLanes (s : State) (d st : Nat) : List Nat :=
  ((List.range 3).map (sideBase d + ·)).filter fun n => (s.laneOf n).link == st

/-- Bytes padded with zero bytes to a multiple of 8 (R400). -/
def pad8 (bs : List Byte) : List Byte := bs ++ List.replicate ((8 - bs.length % 8) % 8) 0

/-- A message of R400: header, body and pad. -/
def peerMessage (kind hops dest src : Nat) (body : List Byte) : List Byte :=
  pad8 (leBytes 1 kind ++ leBytes 1 hops ++ leBytes 2 dest ++ leBytes 2 src ++ leBytes 2 body.length ++ body)

/-- Priority class of a kind (R403). -/
def peerClass (kind : Nat) : Nat :=
  match kind with
  | 1 | 2 => 0
  | 4 => 1
  | 3 | 5 => 2
  | _ => 3

/-- Number of letter bytes that a queued message carries; 0 for another kind (R404). -/
def fragBytes (m : List Byte) : Nat := if fld m 0 1 = 6 then fld m 6 2 - 8 else 0

/-- The queued message that goes next: the first of the lowest class, a LETTER only within the credit (R403, R404). -/
def Side.nextMessage (d : Side) : Option (Nat × List Byte) :=
  let ok := d.queue.filter fun m => m.1 != 3 || precedes d.fwdSent d.fwdLimit
  [0, 1, 2, 3].findSome? fun c => ok.find? fun m => m.1 == c

/-- The ACTIVE lane that carries codeword `seq` of a side (log 20). -/
def State.dataLane (s : State) (d seq : Nat) : Option Nat :=
  let ls := s.sideLanes d 3
  ls[seq % ls.length]?

/-- One queued message of side `d` goes out as a DATA codeword of its own, while fewer than 256 are unacknowledged (R397, log 20). -/
def State.peerSendOne (s : State) (d : Nat) : State :=
  let sd := s.sideOf d
  match sd.nextMessage, s.dataLane d sd.nextSeq with
  | some m, some lane =>
    if sd.up && sd.unacked.length < 256 then
      let s := s.setSide d fun x => { x with
        queue := x.queue.erase m, unacked := x.unacked ++ [(x.nextSeq, m.2)], nextSeq := (x.nextSeq + 1) % 512,
        fwdSent := (x.fwdSent + fragBytes m.2) % 2 ^ 32 }
      s.sendCodeword lane (peerHeader tyDATA sd.nextSeq sd.ack) (.bytes m.2)
    else s
  | _, _ => s

/-- Every queued message that may go out goes out. -/
def State.peerPump (s : State) (d : Nat) : State :=
  (List.range (s.sideOf d).queue.length).foldl (fun s _ => s.peerSendOne d) s

/-- A message is queued to side `d`, or dropped and counted where the side is DOWN; postcards are not counted (R399). -/
def State.peerQueue (s : State) (d : Nat) (kind : Nat) (m : List Byte) : State :=
  if (s.sideOf d).up then (s.setSide d fun x => { x with queue := x.queue ++ [(peerClass kind, m)] }).peerPump d
  else if kind = 3 then s else s.bump PEER.DROPPED 1

/-- The side toward which a message for device `dev` goes: none where no position names it (R402). -/
def State.routeSide (s : State) (dev : Nat) : Option Nat :=
  match (List.range s.chainLen).find? fun p => bits (s.active (PEER.POS_DEV p)) 9 0 == dev with
  | none => none
  | some p => if p < s.chainPos then some 0 else if s.chainPos < p then some 1 else none

/-- R402: a message that no position names is dropped, counted and recorded. -/
def State.unrouted (s : State) : State :=
  ((s.bump PEER.UNROUTED 1).raise pPEER 5).event pPEER V.UNROUTED []

/-- A message of this device for a device (R402). -/
def State.peerToDevice (s : State) (kind dev : Nat) (body : List Byte) : State :=
  let m := peerMessage kind 0 dev s.deviceNo body
  match s.routeSide dev with
  | none => s.unrouted
  | some d => (s.bump PEER.MSGS_SENT 1).peerQueue d kind m

/-! ### Letters that this device forwards (R404) -/

/-- The fragments of a forwarded letter: offset and bytes (R404); `n` bounds them. -/
def fragments : Nat → Nat → List Byte → List (Nat × List Byte)
  | 0, _, _ => []
  | n + 1, o, bs => if bs.isEmpty then [] else (o, bs.take 616) :: fragments n (o + 616) (bs.drop 616)

/-- A fragment of a letter of this device has not been sent yet. -/
def State.fragmentsWait (s : State) : Bool :=
  s.peers.side.any fun x => x.queue.any fun m => fld m.2 0 1 == 6 && fld m.2 4 2 == s.deviceNo

/-- The fragments of the next letter are queued, once those of the one before it have all been sent, to whichever side (R404). -/
def State.forwardOne (s : State) : State :=
  match s.peers.forward with
  | [] => s
  | (dev, letter) :: rest =>
    if s.fragmentsWait then s
    else (fragments letter.length 0 letter).foldl (fun s f => s.peerToDevice 6 dev (leBytes 4 f.1 ++ leBytes 4 letter.length ++ f.2))
      ({ s with peers := { s.peers with forward := rest } } : State)

/-- The letters that may be forwarded now are. -/
def State.forwardPump (s : State) : State := s.peers.forward.foldl (fun s _ => s.forwardOne) s

/-- R404: a letter is forwarded toward a device, without its pad bytes, after those before it. -/
def State.forwardLetter (s : State) (dev : Nat) (letter : List Byte) : State :=
  ({ s with peers := { s.peers with forward := s.peers.forward ++ [(dev, letter)] } } : State).forwardPump

/-- A message of this device for its neighbour across side `d` (R400 NEIGH). -/
def State.peerToNeighbour (s : State) (d kind : Nat) (body : List Byte) : State :=
  (s.bump PEER.MSGS_SENT 1).peerQueue d kind (peerMessage kind 0 0x4000 s.deviceNo body)

/-- A message of this device for every device, toward both sides (R304, R403). -/
def State.peerBroadcast (s : State) (kind : Nat) (body : List Byte) : State :=
  let m := peerMessage kind 0 0x8000 s.deviceNo body
  ((s.bump PEER.MSGS_SENT 1).peerQueue 0 kind m).peerQueue 1 kind m

end Sys2Proof.Machine
end

