-- ==== Sys2Proof/Machine/Time.lean ====
section
/-! DEFINITION. Network time: the local clock, corrections, lock sessions and their records (R410 to R425, R433). -/

namespace Sys2Proof.Machine

/-! ### The local clock (R410) -/

/-- NOM of R410, 2^-32 ns. -/
def timeNom : Nat := 2 ^ 33
/-- LIM of R410. -/
def State.timeLim (s : State) : Nat := timeNom * bits (s.active TIME.RATE_LIMIT) 8 0 / 1000000
/-- inc of R410. -/
def State.timeInc (s : State) : Nat := bits (s.active TIME.INC_NS) 3 0 * 2 ^ 32 + s.active TIME.INC_FRAC

/-- lo and hi of R410: the least and the most by which one tick moves rem, 2^-32 ns. -/
def State.slewLo (s : State) : Int := (timeNom : Int) - s.timeLim - s.timeInc
def State.slewHi (s : State) : Int := (timeNom : Int) + s.timeLim - s.timeInc

/-- EPOCH:NS:FRAC as one number, 2^-32 ns. -/
def TimeUnit.now (t : TimeUnit) : Nat := t.epoch * 2 ^ 64 + t.ns * 2 ^ 32 + t.frac

/-- EPOCH, NS and FRAC from one number mod 2^96. -/
def TimeUnit.setNow (t : TimeUnit) (v : Nat) : TimeUnit :=
  { t with epoch := v / 2 ^ 64 % 2 ^ 32, ns := v / 2 ^ 32 % 2 ^ 32, frac := v % 2 ^ 32 }

/-- R414: the WRAP records of the epochs that the clock has entered. -/
def State.wraps (s : State) (oldEpoch n : Nat) : State :=
  (List.range n).foldl (fun s i => (s.event pTIME V.WRAP [.f 4 ((oldEpoch + i + 1) % 2 ^ 32)]).raise pTIME 2) s

/-- R422: BEYOND clears at the first tick at which |rem| is at most SLEW_BOUND ns, and the tally closes. -/
def State.beyondCheck (s : State) : State :=
  if s.time.beyond && decide (s.time.rem.natAbs ≤ s.reg TIME.SLEW_BOUND * 2 ^ 32) then
    ({ s with time := { s.time with beyond := false } } : State).closeCause E.OFFSET_BEYOND_SLEW 0
  else s

/-- n ticks of R410 in closed form: rem moves toward 0 by at most lo or hi in each tick. A stopped time clock makes none (R617). -/
def State.ticks (s : State) (n : Nat) : State :=
  if s.power.stopped.contains 4 then s else
  let r := s.time.rem
  let moved := if 0 ≤ r then min r (n * s.slewHi) else max r (n * s.slewLo)
  let old := s.time.now
  let new := (old : Int) + n * s.timeInc + moved
  let t := { s.time.setNow new.toNat with rem := r - moved }
  (({ s with time := t } : State).wraps s.time.epoch (new.toNat / 2 ^ 64 - old / 2 ^ 64)).beyondCheck

/-- Ticks until the clock has advanced by at least `d`, 2^-32 ns. -/
def State.ticksFor (s : State) (d : Nat) : Nat :=
  let r := s.time.rem
  let inc := s.timeInc
  if 0 ≤ r then max (ceilDiv d (inc + s.slewHi.toNat)) (ceilDiv (d - r.toNat) inc)
  else min (ceilDiv (d + r.natAbs) inc) (ceilDiv d (inc - s.slewLo.natAbs))

/-- Ticks until |rem| is at most `b`, 2^-32 ns; none where rem cannot move. -/
def State.ticksToRem (s : State) (b : Nat) : Option Nat :=
  let excess := s.time.rem.natAbs - b
  let step := if 0 ≤ s.time.rem then s.slewHi.natAbs else s.slewLo.natAbs
  if excess = 0 then some 0 else if step = 0 then none else some (ceilDiv excess step)

/-- TIME_WRAP (R414): the clock runs through the tick at which NS wraps. -/
def execTimeWrap (s : State) : Host.Outcome State Fault Refusal :=
  .next (settle s (s.ticks (s.ticksFor (2 ^ 64 - s.time.now % 2 ^ 64))))

/-- The clock runs until |rem| is at most `b`, 2^-32 ns. -/
def State.runToRem (s : State) (b : Nat) : State :=
  match s.ticksToRem b with
  | some n => s.ticks n
  | none => s

/-- BEYOND_CLEAR (R422). -/
def execBeyondClear (s : State) : Host.Outcome State Fault Refusal :=
  .next (settle s (s.runToRem (s.reg TIME.SLEW_BOUND * 2 ^ 32)))

/-- SLEW_DONE (R421). -/
def execSlewDone (s : State) : Host.Outcome State Fault Refusal := .next (settle s (s.runToRem 0))

/-- R415: a write of SNAP with ACT at 1. -/
def State.snap (s : State) : State :=
  ((s.setReg TIME.NOW_EPOCH s.time.epoch).setReg TIME.NOW_NS s.time.ns).setReg TIME.NOW_FRAC s.time.frac

/-- SNAP (R415). -/
def execSnap (s : State) : Host.Outcome State Fault Refusal := .next (settle s (s.wakeEvent wakeREGISTER).snap)

/-! ### Lock sessions (R416, R424, R425) -/

/-- R416: the open session closes. -/
def State.endSession (s : State) : State := { s with time := { s.time with sessionOpen := false } }

/-- END_SESSION (R416). -/
def execEndSession (s : State) : Host.Outcome State Fault Refusal := .next (settle s (s.wakeEvent wakeREGISTER).endSession)

/-- R425: no Sync came for TIMEOUT ms while a session is open. -/
def State.masterLost (s : State) : State :=
  if s.time.sessionOpen then
    let s := ((s.error pTIME E.MASTER_LOST []).bump TIME.MASTER_LOSSES 1).raise pTIME 5
    ({ s with time := { s.time with sessionOpen := false, rem := 0 } } : State).beyondCheck
  else s

/-- MASTER_LOST (R425). -/
def execMasterLost (s : State) : Host.Outcome State Fault Refusal := .next (settle s s.masterLost)

/-- R416, R424: a Sync of the domain is counted and opens a session when none is open; sessions are tracked while CTRL.EN is 1. -/
def State.syncTaken (s : State) : State :=
  let s := s.bump TIME.SYNCS 1
  if !s.enabled pTIME then s
  else if s.time.sessionOpen then { s with time := { s.time with sessionSyncs := min (s.time.sessionSyncs + 1) 0xFFFF } }
  else ({ s with time := { s.time with sessionOpen := true, stepUsed := false, sessionSyncs := 1 } } : State).raise pTIME 6

/-! ### Corrections (R417 to R422) -/

/-- R419: no job slot is LEADING, WRITING or DRAINING. -/
def State.jobsQuiet (s : State) : Bool :=
  s.slots.all fun x => x.st != .leading && x.st != .writing && x.st != .draining

/-- R419 without the sign of CORR: a session with its step unused, no active job and no postcards sent. -/
def State.stepAllowed (s : State) : Bool :=
  s.time.sessionOpen && !s.time.stepUsed && s.jobsQuiet && !bit (s.reg WEB.PC_CFG) 25

/-- R417: the CORRECTION record. The spec does not state the codes of the outcomes 0 none, 1 stepped, 2 slewed, 3 slewed with STEP_REFUSED
(log 21). CORR_MODE is a register value of 4 bytes (R581). -/
def State.correctionRec (s : State) (corr mode outcome : Nat) : State :=
  s.event pTIME V.CORRECTION [.f 8 corr, .f 4 mode, .f 1 (Config.correctionOutcome outcome).toNat, .f 4 s.time.epoch, .f 4 s.time.ns]

/-- R422: a slewed request beyond the bound sets BEYOND and opens its tally, or is counted in it. BEYONDS counts the
records, also the one of a new tally after R588 has closed one. -/
def State.beyondReport (s : State) (corr : Int) : State :=
  if s.reg TIME.SLEW_BOUND * 2 ^ 16 < corr.natAbs then
    let new := match s.tally? E.OFFSET_BEYOND_SLEW 0 with
      | none => true
      | some t => s.tallyOver t
    let s := s.report pTIME E.OFFSET_BEYOND_SLEW 0 1 [] [] (some pTIME) (some 4) false
    let s : State := { s with time := { s.time with beyond := true } }
    if new then s.bump TIME.BEYONDS 1 else s
  else s

/-- R419: a step adds CORR to the local time in one tick, together with the tick's increment, with no WRAP record for the epochs it crosses. -/
def State.timeStep (s : State) (corr : Int) : State :=
  let old := s.time
  let t := s.time.setNow (old.now + s.timeInc + corr.toNat * 2 ^ 16)
  let s : State := { s with time := { t with rem := 0, stepUsed := true } }
  let s := s.event pTIME V.STEP [.f 4 old.epoch, .f 4 old.ns, .f 4 s.time.epoch, .f 4 s.time.ns]
  (s.bump TIME.STEPS 1).raise pTIME 3

/-- R417 to R422: a correction request, decided at the tick in which it lands: CORR as it is coded, and CORR_MODE.STEP. -/
def State.request (s : State) (q : Nat × Bool) : State :=
  let corr := sInt 64 q.1
  let mode := if q.2 then 1 else 0
  let s := s.bump TIME.CORRECTIONS 1
  if corr = 0 then (({ s with time := { s.time with rem := 0 } } : State).correctionRec q.1 mode 0).beyondCheck
  else if q.2 && decide (0 < corr) && s.stepAllowed then ((s.timeStep corr).correctionRec q.1 mode 1).beyondCheck
  else
    let s : State := { s with time := { s.time with rem := corr * 2 ^ 16 } }
    let s := if q.2 && decide (0 < corr) then ((s.correctionRec q.1 mode 3).error pTIME E.STEP_REFUSED []).bump TIME.STEP_REFUSALS 1
             else s.correctionRec q.1 mode 2
    (s.beyondReport corr).beyondCheck

/-- An accepted commit of group 2 is a request (R417); corrections act while CTRL.EN is 1. While the time clock is stopped no tick comes in which it
could land: it waits (R412, R617). -/
def State.correction (s : State) : State :=
  let q := (s.active64 TIME.CORR_LO TIME.CORR_HI, bit (s.active TIME.CORR_MODE) 0)
  if !s.enabled pTIME then s
  else if s.power.stopped.contains 4 then { s with time := { s.time with requests := s.time.requests ++ [q] } }
  else s.request q

/-- The requests that waited land once the time clock runs again. -/
def State.requestsLand (s : State) : State :=
  if s.power.stopped.contains 4 then s
  else s.time.requests.foldl State.request { s with time := { s.time with requests := [] } }

/-! ### Registers (R433) -/

/-- A write of a TIME register, after the store of its bits. -/
def State.writeTime (s : State) (a v : Nat) : State :=
  if a = CTRL pTIME then (if bit v 1 then s.endSession else s)
  else if a = TIME.SNAP then (if bit v 8 then s.snap else s)
  else s

/-- rem as REM shows it: a 64-bit two's complement number of 2^-16 ns, rounded down (DESIGN CHOICE, log 76). -/
def State.remBits (s : State) : Nat := uInt 64 (s.time.rem / 2 ^ 16)

/-- What a read of a derived TIME register returns. -/
def State.readTime (s : State) (a : Nat) : Option Nat :=
  if a = TIME.REM_LO then some (s.remBits % 2 ^ 32)
  else if a = TIME.REM_HI then some (s.remBits / 2 ^ 32)
  else if a = TIME.SESSION then
    some ((if s.time.sessionOpen then 2 ^ 31 else 0) + (if s.time.stepUsed then 2 ^ 30 else 0) + s.time.sessionSyncs)
  else if a = STATUS pTIME then
    some (s.reg a + (if s.time.rem = 0 then 0 else 16) + (if s.time.beyond then 32 else 0) + if s.time.sessionOpen then 64 else 0)
  else none

end Sys2Proof.Machine
end

