-- ==== Sys2Proof/Machine/Eth.lean ====
section
/-! DEFINITION. The Ethernet port (R424, R426 to R434). -/

namespace Sys2Proof.Machine

/-- Big-endian 16-bit field of a frame. -/
def be16 (bs : List Byte) (o : Nat) : Nat := fld bs o 1 * 256 + fld bs (o + 1) 1

/-! ### PTP recognition (R424, R426) -/

/-- Offset of the EtherType, behind at most one 802.1Q tag. -/
def typeOffset (f : List Byte) : Nat := if be16 f 12 = 0x8100 then 16 else 12

/-- Offset of the PTP header in a frame with one of the transports of R426: L2, UDP/IPv4, UDP/IPv6 without extension headers; the UDP
destination port is `port`. -/
def ptpOffset (f : List Byte) (port : Nat) : Option Nat :=
  let t := typeOffset f
  let ip := t + 2
  if be16 f t = 0x88F7 then some ip
  else if be16 f t = 0x0800 then
    let ihl := 4 * (fld f ip 1 % 16)
    if fld f (ip + 9) 1 = 17 ∧ be16 f (ip + ihl + 2) = port then some (ip + ihl + 8) else none
  else if be16 f t = 0x86DD then
    if fld f (ip + 6) 1 = 17 ∧ be16 f (ip + 42) = port then some (ip + 48) else none
  else none

/-- versionPTP is 2. -/
def ptpVersion2 (f : List Byte) (o : Nat) : Bool := fld f (o + 1) 1 % 16 == 2

/-- RFLAGS.EVENT: a PTP event message, messageType 0 to 3 (R428; IEEE 1588-2019). -/
def isPtpEvent (f : List Byte) : Bool :=
  match ptpOffset f 319 with
  | none => false
  | some o => ptpVersion2 f o && decide (fld f o 1 % 16 < 4)

/-- A Sync of domain `d` (R424). -/
def isSync (f : List Byte) (d : Nat) : Bool :=
  match ptpOffset f 319 with
  | none => false
  | some o => ptpVersion2 f o && fld f o 1 % 16 == 0 && fld f (o + 4) 1 == d

/-! ### Receiving (R428, R432) -/

/-- ETH.MAC as the six bytes of a frame, in the order of transmission: bits [7:0] of MAC_LO first (log 22). -/
def State.ownMac (s : State) : List Byte := leBytes 4 (s.reg ETH.MAC_LO) ++ leBytes 2 (s.reg ETH.MAC_HI)
def State.postcardDest (s : State) : List Byte := leBytes 4 (s.reg ETH.PC_DEST_LO) ++ leBytes 2 (s.reg ETH.PC_DEST_HI)

/-- R428: a frame is addressed to this port: its own address, or a multicast or broadcast one. -/
def State.addressed (s : State) (f : List Byte) : Bool := f.take 6 == s.ownMac || bit (fld f 0 1) 0

/-- R432: a postcard frame. -/
def isPostcardFrame (f : List Byte) : Bool := be16 f 12 == 0x88B5 && fld f 14 1 == 0x03 && fld f 15 1 == 0x01

/-- FRAC cut to 16 bits, of the local time (R427). -/
def State.frac16 (s : State) : Nat := s.time.frac / 2 ^ 16

/-- The 16-byte receive header (R428). -/
def State.rxHeader (s : State) (f : List Byte) (sync : Bool) : List Byte :=
  leBytes 2 f.length ++ leBytes 1 ((if isPtpEvent f then 1 else 0) + if sync then 2 else 0) ++ leBytes 1 0 ++ leBytes 4 s.time.ns ++
  leBytes 2 s.frac16 ++ leBytes 2 s.time.epoch ++ leBytes 4 0

/-- The first receive buffer of a ring that holds no frame and is not one of length 0. -/
def freeBuffer : List Desc → Nat → Option (Nat × Desc)
  | [], _ => none
  | d :: ds, i => if d.bind = 4 ∧ !d.fault ∧ !d.poisoned ∧ d.len ≠ 0 ∧ d.frame = none then some (i, d) else freeBuffer ds (i + 1)

/-- The ring that takes the next frame: one that RX_RING has named before and that still holds a receive buffer finishes it first (R542; which
ring goes first the spec does not say: DESIGN CHOICE, log 73), then the ring that it names now. A ring that waits for its completion queue takes
none (R558). -/
def State.rxRing (s : State) : Option Nat :=
  let v := s.reg ETH.RX_RING
  let now := if bit v 31 then [bits v 4 0] else []
  (((List.range 32).filter fun n => !now.contains n) ++ now).find? fun n =>
    (s.ringOf n).stalled.isNone && (freeBuffer (s.ringOf n).taken 0).isSome

/-- R428: a frame goes to the receive ring's next buffer, or is dropped. Frames longer than 1,522 bytes, FCS included, are dropped (R431). -/
def State.toRxRing (s : State) (f : List Byte) (sync : Bool) : State :=
  let bs := s.rxHeader f sync ++ f
  match s.rxRing.bind fun n => (freeBuffer (s.ringOf n).taken 0).map fun x => (n, x) with
  | some (n, i, d) =>
    if bs.length ≤ d.len ∧ f.length + 4 ≤ 1522 then
      let s := (s.setRing n fun r => { r with taken := modAt r.taken i fun d => { d with frame := some bs } }).issue
      s.bump ETH.RX_FRAMES 1
    else s.bump ETH.RX_DROPPED 1
  | none => s.bump ETH.RX_DROPPED 1

/-- The MAC sends and receives (R434). -/
def State.macOn (s : State) : Bool := s.enabled pETH && s.eth.link == 2

/-- R365: the elastic buffer of lane 24 has over- or underflowed. -/
def State.ethSlip (s : State) (slip : Bool) : State := if slip && (s.laneOf 24).tstate == 6 then s.elasticDrop 24 else s

/-- R382: the receiver of lane 24 adapts on what it receives after DONE. -/
def State.ethAdapt (s : State) : State := if (s.laneOf 24).tstate = 6 then s.adapt 24 else s

/-- ETH_RX_FRAME (R428, R432). -/
def State.ethRx (s : State) (f : List Byte) (fcsOk : Bool) : State :=
  if !s.macOn then s
  else if !fcsOk then s.bump ETH.RX_FCS_BAD 1
  else
    let sync := isSync f (bits (s.reg TIME.MASTER_CFG) 7 0)
    let s := if sync then s.syncTaken else s
    if !s.addressed f then s
    else if isPostcardFrame f then
      ({ s with peers := { s.peers with inbox := s.peers.inbox ++ [(3, 2, (f.drop 22).take 32)] } } : State).bump ETH.PC_TAKEN 1
    else s.toRxRing f sync

/-- ETH_RX_FRAME (R428). -/
def execEthRxFrame (frame : List Byte) (fcsOk slip : Bool) (s : State) : Host.Outcome State Fault Refusal :=
  .next (settle s ((((s.wakeEvent wakeNETWORK).ethSlip slip).ethAdapt).ethRx frame fcsOk))

/-! ### Sending (R429, R430) -/

/-- R429: a transmit timestamp enters its queue of 64, or is dropped. -/
def State.txStampPut (s : State) (tag : Nat) : State :=
  if s.eth.txts.length < 64 then
    { s with eth := { s.eth with txts := s.eth.txts ++ [{ ns := s.time.ns, frac := s.frac16, epoch := s.time.epoch % 2 ^ 16, tag := tag }] } }
  else ((s.error pETH E.TS_QUEUE_FULL []).bump ETH.TS_DROPPED 1).raise pETH 3

/-- ETH_TX_FRAME: the oldest buffer of the transmit ring is sent (R429). -/
def State.ethTx (s : State) : State :=
  match s.eth.txQueue with
  | [] => s
  | b :: rest =>
    if s.macOn then
      let s : State := { s with eth := { s.eth with txQueue := rest } }
      let s := (s.emit (.ethFrame ((b.drop 16).take (fld b 0 2)))).bump ETH.TX_FRAMES 1
      if bit (fld b 2 1) 0 then s.txStampPut (fld b 4 2) else s
    else s

/-- ETH_TX_FRAME (R429). -/
def execEthTxFrame (s : State) : Host.Outcome State Fault Refusal := .next (settle s s.ethTx)

/-- What TXTS_NS, TXTS_FRAC and TXTS_TAG show (R430). -/
def State.txtsNs (s : State) : Nat := (s.eth.txts.head?.map (·.ns)).getD 0
def State.txtsFrac (s : State) : Nat := (s.eth.txts.head?.map fun t => t.frac * 2 ^ 16 + t.epoch).getD 0
def State.txtsTag (s : State) : Nat := (s.eth.txts.head?.map fun t => 2 ^ 31 + t.tag).getD 0

/-- R430: a read of TXTS_TAG returns the tag and removes the head entry. -/
def State.txtsPop (s : State) : State :=
  { s with host := { s.host with data := leBytes 4 s.txtsTag, ep := false }, eth := { s.eth with txts := s.eth.txts.drop 1 } }

/-- TXTS_TAG_READ (R430). -/
def execTxtsTagRead (s : State) : Host.Outcome State Fault Refusal := .next (settle s (s.wakeEvent wakeREGISTER).txtsPop)

/-! ### The link (R431) -/

/-- LINK.STATE takes a value (R434). -/
def State.ethLinkTo (s : State) (v : Nat) : State :=
  if s.eth.link = v then s else ({ s with eth := { s.eth with link := v } } : State).raise pETH 2

/-- ETH_LINK_CHANGE: the PCS of lane 24 gains or loses its lock (R431). -/
def State.ethLinkChange (s : State) (up : Bool) : State :=
  if s.eth.link = 0 then s else s.ethLinkTo (if up then 2 else 1)

/-- ETH_LINK_CHANGE (R431). -/
def execEthLinkChange (up : Bool) (s : State) : Host.Outcome State Fault Refusal := .next (settle s (s.ethLinkChange up))

/-- LAT of the active mode: 10GBASE-R 71 and 46 ns, 1000BASE-X 184 and 112 ns (R427). -/
def State.ethLat (s : State) : Nat := if bit (s.active LANE.RATE_CFG) 8 then 184 * 2 ^ 16 + 112 else 71 * 2 ^ 16 + 46

/-- What a read of a derived ETH register returns. -/
def State.readEth (s : State) (a : Nat) : Option Nat :=
  if a = ETH.LAT then some s.ethLat
  else if a = ETH.LINK then some s.eth.link
  else if a = ETH.TXTS_NS then some s.txtsNs
  else if a = ETH.TXTS_FRAC then some s.txtsFrac
  else if a = ETH.TXTS_TAG then some s.txtsTag
  else if a = ETH.TXTS_LEVEL then some s.eth.txts.length
  else if a = STATUS pETH then some (s.reg a + if s.eth.link = 2 then 16 else 0)
  else none

/-- R432: a postcard goes out as an Ethernet frame. -/
def State.ethPostcard (s : State) (body : List Byte) : State :=
  if s.macOn then
    ((s.emit (.ethFrame (s.postcardDest ++ s.ownMac ++ [0x88, 0xB5] ++ leBytes 1 3 ++ leBytes 1 1 ++ leBytes 2 (bits (s.active CHIP.DEVICE) 9 0) ++
      leBytes 4 0 ++ body ++ leBytes 6 0))).bump ETH.TX_FRAMES 1).bump ETH.PC_SENT 1
  else s

end Sys2Proof.Machine
end

