-- ==== Sys2Proof/Machine/ReplayBuf.lean ====
section
/-! DEFINITION. The replay buffer: its records, the line time of each, and what they say about a line time (R600, R602, R603, log 30). -/

namespace Sys2Proof.Machine

/-- A replay is run (R602). -/
def State.replaying (s : State) : Bool := bit (s.reg LEDGER.REPLAY_CTRL) 31

/-- A live event of a kind of R600 does not act (R602). -/
def State.suppress (s : State) : State := s.bump LEDGER.LIVE_SUPPRESSED 1

/-! ### Records of the buffer -/

/-- A record of the replay buffer, with the bytes of its CONT records after its own (R581), and its number among all written into the buffer. -/
structure RRec where
  pos : Nat
  dev : Nat
  code : Nat
  seq : Nat
  aux : Nat
  pay : List Byte
  deriving DecidableEq, Repr

/-- Records that the buffer has room for. -/
def State.replayCap (s : State) : Nat := s.active LEDGER.REPLAY_SIZE * 32768

/-- The records written into the buffer that it still holds, oldest first. -/
def State.replayRaw (s : State) : List (Nat × List Byte) :=
  let fill := s.reg LEDGER.REPLAY_FILL
  let first := fill - s.replayCap
  (List.range (fill - first)).map fun i =>
    (first + i, s.readMem (s.active64 LEDGER.REPLAY_LO LEDGER.REPLAY_HI + 32 * ((first + i) % max 1 s.replayCap)) 32)

/-- The record that begins with these 32 bytes. -/
def headRaw (pos : Nat) (r : List Byte) : RRec :=
  { pos := pos, dev := fld r 8 2 % 1024, code := fld r 10 2, seq := fld r 4 4, aux := fld r 12 4, pay := r.drop 16 }

/-- The next record after those of `rs`, the latest first; a CONT record adds its bytes to the one before it. -/
def addRaw (rs : List RRec) (p : Nat × List Byte) : List RRec :=
  match rs with
  | [] => [headRaw p.1 p.2]
  | q :: qs => if fld p.2 10 2 = V.CONT then { q with pay := q.pay ++ p.2.drop 16 } :: qs else headRaw p.1 p.2 :: q :: qs

/-- The records of the buffer in SEQ order. -/
def State.replayRecs (s : State) : List RRec := (s.replayRaw.foldl addRaw []).reverse

/-! ### Line time of a record (R603) -/

/-- A listed line time at an offset, less `back`, or the one in AUX where it is not listed (R581); bits [31:0]. -/
def RRec.lineAt (r : RRec) (off back : Nat) : Nat :=
  let v := fld r.pay off 6
  ((if v = 0 then r.aux else v % 2 ^ 32) + 2 ^ 32 - back) % 2 ^ 32

/-- A WEAVE record lists its line time: it has the bytes of one, and six of them are a line time before AUX by no more than the 4 µs of R583 allow,
2 line times (DEDUCED, log 30). -/
def RRec.weaveListed (r : RRec) : Bool :=
  let d := (r.aux + 2 ^ 32 - fld r.pay 0 6 % 2 ^ 32) % 2 ^ 32
  decide (1 ≤ d) && decide (d ≤ 2)

/-- The line time at whose hand-over edge a record is fed, bits [31:0] (R603). A zone enters SAFE and is restarted within its line time, after
its hand-over edge, so that the record is fed at the first edge after it, where the event acted on the cells (R445, R446). -/
def RRec.line (r : RRec) : Nat :=
  if r.code = V.BEAM_WRITE then r.lineAt 12 1
  else if r.code = V.HEALTH then r.lineAt 8 1
  else if r.code = V.REG_WRITE then r.lineAt 7 0
  else if r.code = V.TILE_MAP then r.lineAt 2 0
  else if r.code = V.SAFE ∨ r.code = V.RESTART then (r.lineAt 1 0 + 1) % 2 ^ 32
  else if r.code = E.LOST ∨ r.code = E.FROZEN then r.lineAt 8 0
  else if r.code = V.JOB_ABORTED then r.lineAt (if 3 ≤ fld r.pay 4 1 then 11 else 5) 0
  else if r.code = V.WEAVE then (if r.weaveListed then fld r.pay 0 6 % 2 ^ 32 else r.aux)
  else r.aux

/-- A record of a line time. -/
def RRec.isAt (r : RRec) (t : Nat) : Bool := r.line == t % 2 ^ 32

/-- A record that came into the buffer once the edge of its line time had been fed: the next edge feeds it (DESIGN CHOICE, log 30). -/
def State.fedLate (s : State) (r : RRec) : Bool :=
  let d := (s.lineTime % 2 ^ 32 + 2 ^ 32 - r.line) % 2 ^ 32
  decide (s.replay.seen ≤ r.pos) && decide (1 ≤ d) &&
    decide (d < s.lineTime - s.active64 LEDGER.REPLAY_START_LO LEDGER.REPLAY_START_HI % 2 ^ 48)

/-- The records that the edge of this line time feeds, in SEQ order (R603). -/
def State.dueRecs (s : State) : List RRec := s.replayRecs.filter fun r => r.isAt s.lineTime || s.fedLate r

/-- Those of a code. -/
def State.dueOf (s : State) (code : Nat) : List RRec := s.dueRecs.filter fun r => r.code == code

/-- The records of a code at line time `t`. -/
def State.recordedAt (s : State) (code t : Nat) : List RRec := s.replayRecs.filter fun r => r.code == code && r.isAt t

/-! ### Tallies (R586, R587) -/

/-- The closing record of a tally. -/
def closingOf (rs : List RRec) (o : RRec) : Option RRec := rs.find? fun c => c.code == o.code + 0x8000 && c.aux == o.seq && c.dev == o.dev

/-- The run of a tally reaches line time `t`; a run whose closing record has not come goes on. -/
def runHas (rs : List RRec) (t : Nat) (o : RRec) : Bool :=
  match closingOf rs o with
  | some c => decide (fld c.pay 4 6 ≤ t) && decide (t ≤ fld c.pay 10 6)
  | none => decide (o.aux ≤ t % 2 ^ 32)

/-- A run of a code whose opening record `p` chooses reaches line time `t`: that opening record. -/
def State.recordedRun (s : State) (code t : Nat) (p : RRec → Bool) : Option RRec :=
  let rs := s.replayRecs
  rs.find? fun o => o.code == code && p o && runHas rs t o

/-! ### What the records say about the line time of this edge -/

/-- Job of a record that begins with it. -/
def RRec.job (r : RRec) : Nat := fld r.pay 0 4

/-- The cause of R658 that is recorded for a line of a job composed in line time `t`, with the mask of R151: 2 STARVED, 3 OVERSPEED,
4 OVER_BUDGET. -/
def State.recordedCause (s : State) (job t : Nat) : Nat × Nat :=
  if (s.recordedRun V.STARVED t fun r => r.job == job).isSome then (2, 0)
  else if (s.recordedRun V.OVERSPEED t fun _ => true).isSome then (3, 0)
  else match s.recordedRun V.OVER_BUDGET t fun r => r.job == job with
    | some r => (4, fld r.pay 10 1)
    | none => (0, 0)

/-- The slot of the job whose JOB_STARTED is recorded at line time `t`, where it is in a slot (R657). -/
def State.recordedStart (s : State) (t : Nat) : Option Nat :=
  (s.recordedAt V.JOB_STARTED t).findSome? fun r =>
    (List.range 4).find? fun n => let x := s.slots.getD n {}; x.st != .empty && x.job == r.job

/-- The weave entry recorded at line time `t` (R231). -/
def State.recordedWeave (s : State) (t : Nat) : Option Weave :=
  ((s.recordedAt V.WEAVE t).getLast?).map fun r =>
    let o := if r.weaveListed then 6 else 0
    { lt := t, a := sInt 16 (fld r.pay o 2), range := bit (fld r.pay (o + 2) 1) 0, stale := bit (fld r.pay (o + 2) 1) 1 }

/-- The outcome recorded for a segment of a strip that settles in this line time (R602): 1 Mismatch, 2 Missing, 0 Good. -/
def State.recordedOutcome (s : State) (strip : Nat) : Nat :=
  let hit (code : Nat) : Bool := (s.recordedRun code s.lineTime fun r => fld r.pay 0 1 == strip).isSome
  if hit E.ECHO_MISMATCH then 1 else if hit E.ECHO_MISSING then 2 else 0

/-- FRAME_LOST is recorded for a strip in this line time. -/
def State.recordedLost (s : State) (strip : Nat) : Bool := (s.recordedRun E.FRAME_LOST s.lineTime fun r => fld r.pay 0 1 == strip).isSome

/-- A posting of a job is recorded as late (R127) in this line time or a later one: composition makes this line without it, as it did (R600). -/
def State.recordedLate (s : State) (job stamp line : Nat) : Bool :=
  s.replayRecs.any fun r => r.code == V.LATE_POSTING && r.job == job && fld r.pay 4 2 == stamp && fld r.pay 6 6 == line &&
    decide ((r.aux + 2 ^ 32 - s.lineTime % 2 ^ 32) % 2 ^ 32 < 2 ^ 31)

/-- VOID_STAMP_ABSENT is recorded for a job in this line time (R264). -/
def State.recordedAbsent (s : State) (job : Nat) : Bool := (s.recordedAt V.VOID_STAMP_ABSENT s.lineTime).any fun r => r.job == job

/-- The reload recorded for a field at a cell of a job (R167). -/
def State.recordedReload (s : State) (job field cell : Nat) : Option Nat :=
  ((s.replayRecs.filter fun r => r.code == V.RELOAD && r.job == job && fld r.pay 4 1 == field &&
    fld r.pay 13 4 == cell).getLast?).map fun r => fld r.pay 5 8

end Sys2Proof.Machine
end

