-- ==== Sys2Proof/Machine/HeadLink.lean ====
section
/-! DEFINITION. Jembi Link: lane states, return messages, losses and takeovers (R320 to R354). -/

namespace Sys2Proof.Machine

/-- Link states of a head lane (R322). -/
def hOFF : Nat := 0
def hTRAIN : Nat := 1
def hALIGN : Nat := 2
def hUP : Nat := 3
def hSPARE : Nat := 4
def hLOST : Nat := 5
def hFAILED : Nat := 6

/-- Lane group of a head lane, and of a strip (R320, R321). -/
def headGroup (n : Nat) : Nat := n / 9
def stripGroup (m : Nat) : Nat := m / 8

/-- STRIPS of the active ROW_CFG. -/
def State.stripCount (s : State) : Nat := bits (s.active SPLIT.ROW_CFG) 20 16

/-- The lane that the active map names for a strip (R321). -/
def State.laneOfStrip (s : State) (m : Nat) : Nat := bits (s.active (JLINK.LANE_MAP m)) 4 0
/-- The strip below STRIPS that the active map gives to a lane. -/
def State.stripOfLane (s : State) (n : Nat) : Option Nat := (List.range s.stripCount).find? fun m => s.laneOfStrip m == n

/-- Link state of lane `n` takes a value; a lane that enters UP or SPARE has its first marker before it (R340). -/
def State.linkTo (s : State) (n st : Nat) : State := s.setLane n fun l => { l with link := st, entered := st == hUP || st == hSPARE }

/-- R322: a lane in ALIGN that is locked both ways becomes UP or SPARE. -/
def State.headAlign (s : State) (n : Nat) : State :=
  let l := s.laneOf n
  if l.link = hALIGN ∧ l.rxLock ∧ l.headHere then s.linkTo n (if (s.stripOfLane n).isSome then hUP else hSPARE) else s

/-- R322, R353: after a hand-over of the map, UP lanes that it no longer names become SPARE, and SPARE lanes that it names UP. -/
def State.mapSync (s : State) : State :=
  (List.range 18).foldl (fun s n =>
    let named := (s.stripOfLane n).isSome
    let st := (s.laneOf n).link
    if st = hUP ∧ !named then s.linkTo n hSPARE else if st = hSPARE ∧ named then s.linkTo n hUP else s) s

/-- The SPARE lanes of a group, lowest first, without those that a takeover has chosen (R351). -/
def State.spares (s : State) (g : Nat) : List Nat :=
  (List.range 18).filter fun n => headGroup n == g && (s.laneOf n).link == hSPARE && !(s.jl.takeovers.any (·.toLane == n))

/-! ### Takeovers (R350, R351) -/

/-- The SWAP message and the CONTROL codeword that holds it (R350). -/
def swapContent (strip fromLane toLane id : Nat) : List Byte :=
  leBytes 1 0x10 ++ leBytes 1 strip ++ leBytes 1 fromLane ++ leBytes 1 toLane ++ leBytes 2 id ++ List.replicate 634 0

/-- The next SWAP_ID: nonzero, wrapping past 0 (R350). -/
def nextSwapId (i : Nat) : Nat := if (i + 1) % 2 ^ 16 = 0 then 1 else (i + 1) % 2 ^ 16

/-- R351: a strip is lost and its group has no SPARE lane left. -/
def State.noReserveLane (s : State) : State :=
  ((s.error pJLINK E.NO_RESERVE_LANE []).bump JLINK.NO_RESERVES 1).raise pJLINK 4

/-- A CONTROL codeword goes out on a lane (R327, R335). -/
def State.sendControl (s : State) (n : Nat) (c : List Byte) : State := s.sendCodeword n (headHeader tyCONTROL 0 0 true s.lineTime) (.bytes c)

/-- R350 step 1, R351: a takeover of strip `m` from a lane starts on the lowest-numbered SPARE lane. -/
def State.takeover (s : State) (m fromLane : Nat) : State :=
  match (s.spares (stripGroup m)).head? with
  | none => s.noReserveLane
  | some r =>
    if bit (s.reg (CTRL pJLINK)) 1 || !s.enabled pJLINK then s
    else
      let id := nextSwapId s.jl.swapId
      let s : State := { s with jl := { s.jl with
        swapId := id, takeovers := s.jl.takeovers ++ [{ strip := m, fromLane := fromLane, toLane := r, swapId := id }] } }
      s.sendControl r (swapContent m fromLane r id)

/-- A takeover that waited for lane `r` tries the next lane (R350 steps 4 and 5). -/
def State.takeoverNext (s : State) (r : Nat) : State :=
  match s.jl.takeovers.find? (·.toLane == r) with
  | none => s
  | some t =>
    ({ s with jl := { s.jl with takeovers := s.jl.takeovers.erase t } } : State).takeover t.strip t.fromLane

/-- Codewords of a segment (R330). -/
def SegData.count (d : SegData) : Nat := if d.mode = 1 then 7 else 5

/-- PART `p` of a segment goes out on a lane (R332, R333), with the line time in which it is sent; in a replay none is sent (R602). -/
def State.sendPart (s : State) (n : Nat) (g : Seg) (p : Nat) : State :=
  if s.replaying then s
  else s.sendCodeword n (headHeader tyDATA g.data.row p (p + 1 == g.data.count) g.lt) (.part g.data p)

/-- The codewords of a segment that are left go out. -/
def State.sendRest (s : State) (n : Nat) (g : Seg) : State :=
  (List.range (g.data.count - g.sent)).foldl (fun s i => s.sendPart n g (g.sent + i)) s

/-- A segment waits on a lane for its codewords to be sent. -/
def Seg.open (g : Seg) : Bool := g.lane.isSome && !g.lost && decide (g.sent < g.data.count)

/-- The open segments that `p` chooses are sent to their end, in order. -/
def State.finishSegs (s : State) (p : Seg → Bool) : State :=
  let s := (s.segs.filter fun g => g.open && p g).foldl (fun s g => s.sendRest (g.lane.getD 0) g) s
  { s with segs := s.segs.map fun g => if g.open && p g then { g with sent := g.data.count } else g }

/-- The segment of a lane whose codewords go next in this line time (R333). -/
def State.openSeg (s : State) (n : Nat) : Option Seg := s.segs.find? fun g => g.open && g.lane == some n && g.lt == s.lineTime

/-- The next codeword of a lane's open segment goes out. -/
def State.sendNext (s : State) (n : Nat) (g : Seg) : State :=
  let s := s.sendPart n g g.sent
  { s with segs := s.segs.map fun x => if x = g then { x with sent := g.sent + 1 } else x }

/-- R334: segments that were not sent whole are not sent any more; `p` chooses them. -/
def State.dropSegs (s : State) (p : Seg → Bool) : State :=
  { s with segs := s.segs.map fun g => if g.open && p g then { g with lane := none } else g }

/-- R350 step 3: segments of strip `m` of the current line time that have not begun to be sent go on lane `r`. -/
def State.sendStrip (s : State) (m r : Nat) : State :=
  let due (g : Seg) : Bool := g.data.strip == m && g.lane.isNone && g.lt == s.lineTime && !g.lost && g.sent == 0
  if s.enabled pJLINK then { s with segs := s.segs.map fun g => if due g then { g with lane := some r } else g } else s

/-- R350 step 3: SWAP_READY has come. -/
def State.takeoverDone (s : State) (t : Takeover) : State :=
  let s : State := { s with jl := { s.jl with takeovers := s.jl.takeovers.erase t } }
  let s := ((s.setReg (JLINK.LANE_MAP t.strip) t.toLane).setActive (JLINK.LANE_MAP t.strip) t.toLane).linkTo t.toLane hUP
  (((s.sendStrip t.strip t.toLane).bump JLINK.TAKEOVERS 1).event pJLINK V.TAKEOVER []).raise pJLINK 3

/-- R348, R349: the record, interrupt and marks of a lost head lane. Segments of an UP lane's strip that it sent are settled Lost at the
next hand-over edge; those it has not sent whole wait for another lane or are abandoned (R334, R350). -/
def State.lossMarks (s : State) (n : Nat) : State :=
  let m := (s.stripOfLane n).getD 0
  let s := (s.error pJLINK E.LANE_LOST [.f 1 n, .f 1 m, .lt s.lineTime]).raise pJLINK 2
  let own (g : Seg) : Bool := g.lane == some n && g.data.strip == m
  let s := s.dropSegs own
  { s with segs := s.segs.map fun g => if own g then { g with lost := true } else g }

/-- R348 to R351: a lane that is UP or SPARE is lost. -/
def State.headLaneLost (s : State) (n : Nat) : State :=
  let st := (s.laneOf n).link
  if st = hUP ∨ st = hSPARE then
    let strip := s.stripOfLane n
    let s := if st = hUP then s.lossMarks n else (s.error pJLINK E.LANE_LOST [.f 1 n, .f 1 0, .lt s.lineTime]).raise pJLINK 2
    let s := s.linkTo n hLOST
    if st = hUP then
      match strip with
      | some m => s.takeover m n
      | none => s
    else s.takeoverNext n
  else s

/-- LANE_LOST: Riluz's own receiver of a head lane loses lock (R348). -/
def State.receiverLost (s : State) (n : Nat) : State :=
  (s.seekLock n).headLaneLost n

/-- LANE_LOST (R348). -/
def execLaneLost (lane : Fin 18) (s : State) : Host.Outcome State Fault Refusal := .next (settle s (s.receiverLost lane))

/-- SWAP_TIMEOUT: no SWAP_READY came for a strip's takeover (R350 step 4). -/
def State.swapTimeout (s : State) (m : Nat) : State :=
  match s.jl.takeovers.find? (·.strip == m) with
  | none => s
  | some t => ((s.linkTo t.toLane hFAILED).bump JLINK.TAKEOVER_FAILS 1).takeoverNext t.toLane

/-- SWAP_TIMEOUT (R350). -/
def execSwapTimeout (strip : Fin 16) (s : State) : Host.Outcome State Fault Refusal := .next (settle s (s.swapTimeout strip))

/-! ### Return messages (R342 to R347) -/

/-- A return message that has been acted on leaves the queue of messages passed on. -/
def State.returnTaken (s : State) (msg : List Byte) : State :=
  match s.jl.inbox.find? fun e => e.2 == msg with
  | none => s
  | some e => { s with jl := { s.jl with inbox := s.jl.inbox.erase e } }

/-- R342: a dropped return message. -/
def State.strayMsg (s : State) : State := s.bump JLINK.STRAY_MSGS 1

/-- Bytes [o, 31] of a message are 0. -/
def zeroFrom (msg : List Byte) (o : Nat) : Bool := (msg.drop o).all (· == 0)

/-- An ECHO meets its layout (R342). -/
def echoOk (m : List Byte) : Bool :=
  fld m 0 1 == 1 && decide (fld m 1 1 ≤ 4) && decide (fld m 2 1 ≤ 15) && decide (fld m 3 1 ≤ 1) && zeroFrom m 12

/-- R274: an echo that matches no outstanding segment, a second echo, or one after its deadline. -/
def State.echoStray (s : State) : State :=
  (s.bump SEAL.ECHO_STRAYS 1).event pSEAL V.ECHO_STRAY []

/-- R343, R272: an ECHO is matched to its outstanding segment; the first one stands. It must come before the line event of the line time at whose
hand-over edge the segment is settled. -/
def State.echoMsg (s : State) (m : List Byte) : State :=
  if echoOk m then
    let hit (g : Seg) : Bool := g.data.row == fld m 1 1 && g.data.strip == fld m 2 1 && g.lt % 2 ^ 32 == fld m 4 4
    match s.segs.find? hit with
    | none => s.echoStray
    | some g =>
      if g.echo.isSome || decide (g.lt + 4 ≤ s.lineTime) then s.echoStray
      else
        let upd (x : Seg) : Seg :=
          { x with echo := some (if fld m 8 4 = x.data.sealOf then 0 else 1), lost := x.lost || fld m 3 1 == 1 }
        { s with segs := s.segs.map fun x => if x = g then upd x else x }
  else s.strayMsg

/-- ECHO (R343). -/
def execEcho (_lane : Fin 18) (msg : List Byte) (s : State) : Host.Outcome State Fault Refusal :=
  .next (settle s ((s.returnTaken msg).echoMsg msg))

/-- R345: a report number skips. -/
def State.telemetryGap (s : State) : State :=
  ((s.error pJLINK E.TELEMETRY_GAP []).bump JLINK.TELEM_GAPS 1).raise pJLINK 5

/-- A ZONE message meets its layout (R342, R346). -/
def zoneOk (m : List Byte) : Bool := fld m 0 1 == 3 && decide (fld m 1 1 ≤ 63) && decide (fld m 2 1 ≤ 1) && fld m 3 1 == 0 && zeroFrom m 14

/-- R438: a ZONE message reaches the control engine. -/
def State.zoneTaken (s : State) (z : Nat) (m : List Byte) : State :=
  let alive := bit (fld m 2 1) 0
  { s with loops := { s.loops with zone := modAt s.loops.zone z fun q => { q with
      power := fld m 6 2, temp := fld m 8 2, current := fld m 10 2, supply := fld m 12 2, fresh := true,
      toggled := q.toggled || (q.alive.isSome && q.alive != some alive), alive := some alive } } }

/-- R346: the SEQ of a zone, checked against its previous message. -/
def State.zoneSeqCheck (s : State) (z q : Nat) : State :=
  let skip := match keyGet s.jl.zoneSeq z with
    | none => false
    | some p => q != (p + 1) % 2 ^ 16
  let s : State := { s with jl := { s.jl with zoneSeq := keySet s.jl.zoneSeq z q } }
  if skip then s.telemetryGap else s

/-- R346, R436, R438: a ZONE message. -/
def State.zoneMsg (s : State) (m : List Byte) (queueFull : Bool) : State :=
  if zoneOk m then
    let z := fld m 1 1
    if bits (s.active LOOP.SAMPLE_CFG) 22 16 ≤ z then s.bump LOOP.STRAY_ZONES 1
    else
      let s := s.zoneSeqCheck z (fld m 4 2)
      if queueFull then s.bump LOOP.TELEM_DROPS 1 else s.zoneTaken z m
  else s.strayMsg

/-- ZONE (R346). -/
def execZone (msg : List Byte) (queueFull : Bool) (s : State) : Host.Outcome State Fault Refusal :=
  .next (settle s ((s.returnTaken msg).zoneMsg msg queueFull))

/-- A LINK message meets its layout (R342). -/
def linkOk (m : List Byte) : Bool := fld m 0 1 == 4 && decide (fld m 1 1 ≤ 17) && decide (fld m 2 1 ≤ 3) && fld m 3 1 == 0 && zeroFrom m 8

/-- R347, R348, R350: a LINK message. -/
def State.linkMsg (s : State) (m : List Byte) : State :=
  if linkOk m then
    let n := fld m 1 1
    let locked := bit (fld m 2 1) 0
    let s := (s.bump (JLINK.HEAD_UNCORR n) (fld m 4 2)).setLane n fun l => { l with headLock := locked, headHere := locked && l.tstate == 6 }
    if locked then
      let s := s.headAlign n
      match s.jl.takeovers.find? fun t => t.toLane == n && t.swapId == fld m 6 2 && bit (fld m 2 1) 1 with
      | none => s
      | some t => s.takeoverDone t
    else s.headLaneLost n
  else s.strayMsg

/-- LINK (R347). -/
def execLink (msg : List Byte) (s : State) : Host.Outcome State Fault Refusal := .next (settle s ((s.returnTaken msg).linkMsg msg))

/-- A message that R342 drops is counted; one of MKIND 0 is skipped. -/
def State.strayReturn (s : State) (m : List Byte) : State := if fld m 0 1 = 0 then s else s.strayMsg

/-- STRAY_RETURN_MESSAGE (R342). -/
def execStrayReturnMessage (msg : List Byte) (s : State) : Host.Outcome State Fault Refusal :=
  .next (settle s ((s.returnTaken msg).strayReturn msg))

/-! ### Capacity (R336) -/

/-- line_cap() of R336. -/
def lineCap (rows mode half : Nat) : Nat :=
  let cw := if mode = 1 then 7 else 5
  let n := rows * cw + 1
  -- trunc(wps / words), words = n * 34 * 1024 / 1023 + 1, in exact arithmetic
  let wps := 664062500 / (if half = 1 then 2 else 1)
  min 450000 (wps * 1023 / (n * 34 * 1024 + 1023))

/-- line_cap() with the active ROWS and HEAD_HALF (R353). -/
def State.lineCapNow (s : State) (mode : Nat) : Nat :=
  lineCap (bits (s.active SPLIT.ROW_CFG) 10 8) mode (bits (s.active LANE.RATE_CFG) 0 0)

/-! ### Registers (R353) -/

/-- CTRL.EN of JLINK becomes 1: the first report and the first ZONE message of each zone make no skip (R344, R346). While it is 0 no segment is
sent (R334). -/
def State.jlinkEnabled (s : State) (old : Nat) : State :=
  if !s.enabled pJLINK then s.dropSegs fun _ => true
  else if bit old 0 then s else { s with jl := { s.jl with lastReport := none, gather := none, zoneSeq := [] } }

/-- What a read of a derived JLINK register returns. -/
def State.readJlink (s : State) (a : Nat) : Option Nat :=
  if a = JLINK.LINE_CAP6 then some (s.lineCapNow 0)
  else if a = JLINK.LINE_CAP8 then some (s.lineCapNow 1)
  else if a = STATUS pJLINK then
    some (s.reg a + (if s.jl.healthGap then 32 else 0) + if s.jl.takeovers.isEmpty then 0 else 16)
  else if a = JLINK.GROUP_INFO 0 ∨ a = JLINK.GROUP_INFO 1 then
    let g := if a = JLINK.GROUP_INFO 0 then 0 else 1
    let sp := (List.range 18).filter fun n => headGroup n == g && (s.laneOf n).link == hSPARE
    some (if s.jl.groups.contains g then sp.length * 2 ^ 16 + sp.headD 0x1F else 0)
  else if JLINK.LSTATE 0 ≤ a ∧ a < JLINK.LSTATE 18 ∧ (a - JLINK.LSTATE 0) % 16 = 0 then
    let n := (a - JLINK.LSTATE 0) / 16
    let l := s.laneOf n
    some (l.link * 2 ^ 29 + (if l.link = hUP then (s.stripOfLane n).getD 0 else 0) * 2 ^ 24 + (if l.rxLock then 2 ^ 23 else 0) +
      if l.headLock then 2 ^ 22 else 0)
  else none

end Sys2Proof.Machine
end

