-- ==== Sys2Proof/Machine/Ledger.lean ====
section
/-! DEFINITION. The ledger writer, the ring, tallies, segments and copies (R578 to R597). -/

namespace Sys2Proof.Machine

/-! ### Records as bytes (R578, R581) -/

/-- The payload bytes of listed fields; a line time equal to the one of AUX, where AUX holds a line time, is left out (R581). -/
def fldBytes (aux : Option Nat) : List Fld → List Byte
  | [] => []
  | .f n v :: fs => leBytes n v ++ fldBytes aux fs
  | .lt v :: fs => (if aux = some v then [] else leBytes 6 v) ++ fldBytes aux fs

/-- A byte list cut in pieces of 16 bytes, the last filled with zero bytes; at least one piece. -/
def pieces16 : Nat → List Byte → List (List Byte)
  | 0, bs => [bs.take 16 ++ List.replicate (16 - (bs.take 16).length) 0]
  | n + 1, bs => if bs.length ≤ 16 then [bs ++ List.replicate (16 - bs.length) 0] else bs.take 16 :: pieces16 n (bs.drop 16)

/-- The 32 bytes of a record (R578). -/
def recordBytes (time seq device src code aux : Nat) (payload : List Byte) : List Byte :=
  leBytes 4 time ++ leBytes 4 seq ++ leBytes 2 (device % 1024 + src * 1024) ++ leBytes 2 code ++ leBytes 4 aux ++ payload

/-- CODE of a record (R578). -/
def recordCode (r : List Byte) : Nat := fld r 10 2

/-! ### Copy queues (R595, R597) -/

/-- Slots free in a ledger queue: writing one item more than these would bring Q_TAIL to Q_HEAD (R597). -/
def State.queueFree (s : State) (q : Nat) : Nat :=
  let size := s.active (LEDGER.Q_SIZE q)
  if size = 0 then 0 else (s.reg (LEDGER.Q_HEAD q) + size - 1 - s.reg (LEDGER.Q_TAIL q) % size) % size

/-- One 32-byte slot of queue q written at Q_TAIL (R597). -/
def State.queuePut (s : State) (q : Nat) (slot : List Byte) : State :=
  let size := s.active (LEDGER.Q_SIZE q)
  let tail := s.reg (LEDGER.Q_TAIL q)
  let s := s.emit (.hostWrite (s.active64 (LEDGER.Q_BASE_LO q) (LEDGER.Q_BASE_HI q) + 32 * tail) slot)
  s.setReg (LEDGER.Q_TAIL q) (if size = 0 then 0 else (tail + 1) % size)

/-- Q_FILTER of queue q takes a record of a code (R595). -/
def filterTakes (f code : Nat) (relayed : Bool) : Bool :=
  bit f 31 && (!relayed || bit f 19) &&
  (if bit code 15 then bit f 18 else if bit code 14 then bit f 17 else bit f 16) &&
  (bit f 8 || bits code 13 8 == bits f 5 0)

/-- R595: the copy of a record into queue q, or its drop where the queue is full. -/
def State.copyTo (s : State) (q : Nat) (r : List Byte) (relayed : Bool) : State :=
  if filterTakes (s.reg (LEDGER.Q_FILTER q)) (recordCode r) relayed then
    if s.queueFree q = 0 then s.bump (LEDGER.Q_DROPS q) 1
    else
      let s := (s.queuePut q r).raise pLEDGER (8 + q)
      if s.queueFree q = 0 then s.error pDMA E.QUEUE_OVERFLOW [] else s
  else s

/-- R595: the copies of a record. -/
def State.copies (s : State) (r : List Byte) (relayed : Bool) : State :=
  (List.range 7).foldl (fun s i => s.copyTo (i + 1) r relayed) s

/-! ### The ring (R592, R596) -/

/-- Device address of the ledger ring. -/
def State.ringBase (s : State) : Nat := s.active64 LEDGER.RING_LO LEDGER.RING_HI
/-- Records that the ring holds (R592). -/
def State.ringCap (s : State) : Nat := (s.active LEDGER.RING_SIZE - 4) * 32768
/-- Records of a segment: 2^SEG_LOG2, the exponent held within 6 to 16 (R605). -/
def State.segRecords (s : State) : Nat := 2 ^ min 16 (max 6 (bits (s.reg LEDGER.SEG_CFG) 27 24))

/-- EXPORT_SEQ: the SEQ of the oldest own record not exported, in the ring or in the hold (R585), or the next SEQ (R592). -/
def State.exportSeq (s : State) : Nat :=
  match (s.led.waiting ++ s.led.held.map (·.2)).find? (·.own) with
  | some r => r.seq
  | none => s.led.seq

/-- R596: the oldest unexported records are discarded, with the record of an unbroken run of overwrites. -/
def State.discard (s : State) : State :=
  let n := min s.segRecords s.led.waiting.length
  let was := s.led.overrun
  let s := { s with led := { s.led with waiting := s.led.waiting.drop n, gap := true, overrun := true, segment := none } }
  let s := (s.bump LEDGER.OVERRUN_RECORDS n).raise pLEDGER 2
  if was then s else s.error pLEDGER E.LEDGER_OVERRUN []

/-- A record goes into the next slot of the ring (R592), after the discard of R596 where the slot holds an unexported record. The STATE record of a
change of the power state is part of that change, and wakes nothing (DEDUCED, log 54). -/
def State.ringPut (s : State) (r : List Byte) (m : RingRec) : State :=
  if s.ringCap = 0 then s
  else
    let s := if s.ringCap ≤ s.led.waiting.length then s.discard else s
    let a := s.ringBase + 32 * (s.led.written % s.ringCap)
    let s := (if fld r 10 2 = V.STATE then s.touchRows [(a, r.length)] else s.touch [(a, r.length)]).storeDev mDMA a r
    { s with led := { s.led with written := s.led.written + 1, waiting := s.led.waiting ++ [m] } }

/-- A record taken while CTRL.EN is 1 goes to the ring, while it is 0 to the hold (R585). -/
def State.storeRec (s : State) (r : List Byte) (m : RingRec) : State :=
  if s.enabled pLEDGER then (s.ringPut r m).bump LEDGER.RECORDS 1
  else { s with led := { s.led with held := s.led.held ++ [(r, m)] } }

/-- Device memory of the ring that `n` records from the `i`-th one written lie in (R592): the ring may wrap. -/
def State.ringRegions (s : State) (i n : Nat) : List (Nat × Nat) :=
  let o := i % s.ringCap
  let k := min n (s.ringCap - o)
  [(s.ringBase + 32 * o, 32 * k), (s.ringBase, 32 * (n - k))]

/-- R585: once EN is 1 the held records go into the ring in SEQ order, as soon as its memory serves requests (R500, R505). -/
def State.flushHeld (s : State) : State :=
  let h := s.led.held
  if s.served (s.ringRegions s.led.written h.length) then
    h.foldl (fun s p => (s.ringPut p.1 p.2).bump LEDGER.RECORDS 1) { s with led := { s.led with held := [] } }
  else s

/-- The ring takes `n` more records now: none is held, and its memory serves requests; while EN is 0 the hold takes them (R585). -/
def State.ringServes (s : State) (n : Nat) : Bool :=
  !s.enabled pLEDGER || (s.led.held.isEmpty && s.served (s.ringRegions s.led.written n))

/-! ### The writer (R583) -/

/-- The line time that AUX of a record shows at the moment the writer takes it; none in a closing record, whose AUX is FIRST_SEQ (R578, R587). -/
def State.auxLine (s : State) (r : Rec) : Option Nat := if r.closes.isSome then none else some (r.aux.getD s.lineTime)

/-- AUX of a record at the moment the writer takes it (R578, R587). -/
def State.auxOf (s : State) (r : Rec) : Nat :=
  match r.closes with
  | some id => (keyGet s.led.tallySeq id).getD (Config.freeWord id).toNat
  | none => r.aux.getD s.lineTime % 2 ^ 32

/-- The payload of a record at that moment, with the payloads of its CONT records (R581). -/
def State.payload (s : State) (r : Rec) : List (List Byte) :=
  let bs := fldBytes (s.auxLine r) r.flds
  pieces16 bs.length bs

/-- One record or CONT record is given the next SEQ, stored and copied. -/
def State.takeOne (s : State) (src code aux : Nat) (payload : List Byte) : State :=
  let r := recordBytes s.time.ns s.led.seq s.deviceNo src code aux payload
  let m : RingRec := { seq := s.led.seq, own := true, epoch := s.time.epoch, lineHi := s.lineTime / 2 ^ 32 }
  let s := { s with led := { s.led with seq := (s.led.seq + 1) % 2 ^ 32 } }
  ((s.storeRec r m).copies r false)

/-- R590: a closing record is relayed to the collector of the chain. -/
def State.relay (s : State) (r : List Byte) : State :=
  if bit (s.reg (CTRL pLEDGER)) 2 && s.chainCollect != s.deviceNo then
    (s.peerToDevice 5 s.chainCollect r).bump LEDGER.RELAYED_OUT 1
  else s

/-- R583: the writer takes a record: SEQ and TIME, its CONT records (R581), the latch of R29, the tally's SEQ (R587) and the relay. -/
def State.takeRec (s : State) (r : Rec) : State :=
  let seq := s.led.seq
  let aux := s.auxOf r
  let ps := s.payload r
  let full := recordBytes s.time.ns seq s.deviceNo r.src r.code aux (ps.headD [])
  let s := s.takeOne r.src r.code aux (ps.headD [])
  let s := (ps.drop 1).foldl (fun s p => s.takeOne r.src V.CONT seq p) s
  let s := match r.latch with
    | none => s
    | some p => s.latchErr p r.code seq
  let s := match r.opens with
    | none => s
    | some id => { s with led := { s.led with tallySeq := keySet s.led.tallySeq id seq } }
  match r.closes with
  | none => s
  | some id =>
    let s := { s with led := { s.led with tallySeq := keyErase s.led.tallySeq id } }
    (s.bump LEDGER.TALLIES 1).relay full

/-- Records that a record makes: itself and its CONT records (R581). -/
def State.recCount (s : State) (r : Rec) : Nat := (s.payload r).length

/-- R583, R585: the writer takes the oldest record waiting at a source, or drops it where the hold of 1,024 records has no room; while the ring's
memory serves no request the record waits (R500, R505). -/
def State.ledgerWrite (s : State) (src : Nat) (mem : MemRep) : State :=
  let s := if s.enabled pLEDGER then s.flushHeld else s
  match s.waitingAt src with
  | [] => s
  | r :: rs =>
    if !s.ringServes (s.recCount r) then s else
    let at_ := s.ringRegions s.led.written (s.recCount r)
    let s := s.memReport .ledger mDMA mem
    let s := { s with led := { s.led with queues := keySet s.led.queues src rs } }
    if !s.enabled pLEDGER && 1024 < s.led.held.length + s.recCount r then s.dropRec pLEDGER r
    else if s.enabled pLEDGER then (s.takeRec r).spoilWrites mem.faults at_ else s.takeRec r

/-- LEDGER_WRITE (R583). -/
def execLedgerWrite (src : Fin 60) (mem : MemRep) (s : State) : Host.Outcome State Fault Refusal := .next (settle s (s.ledgerWrite src mem))

/-- R584, R585: a source that dropped records and has room again queues one LEDGER_OVERRUN record with their count. -/
def State.ledgerOverrun (s : State) (src : Nat) : State :=
  match keyGet s.led.dropped src with
  | none => s
  | some n =>
    if (s.waitingAt src).length < 16 && (src != pLEDGER || s.enabled pLEDGER || s.led.held.length < 1024) then
      { s with led := { s.led with dropped := keyErase s.led.dropped src } }.post
        { src := src, code := E.LEDGER_OVERRUN, flds := [.f 4 n], latch := some pLEDGER }
    else s

/-- LEDGER_OVERRUN (R584). -/
def execLedgerOverrun (src : Fin 60) (s : State) : Host.Outcome State Fault Refusal := .next (settle s (s.ledgerOverrun src))

/-- R590: a relayed record is written with its own postmark and takes no SEQ; one that the hold has no room for is dropped and counted (R585). -/
def State.relayedIn (s : State) (r : List Byte) : State :=
  if !s.enabled pLEDGER && decide (1024 ≤ s.led.held.length) then s.dropRec pLEDGER { src := pLEDGER, code := recordCode r, flds := [] } else
  let m : RingRec := { seq := fld r 4 4, own := false, epoch := s.time.epoch, lineHi := s.lineTime / 2 ^ 32 }
  ((s.storeRec r m).bump LEDGER.RELAYED_IN 1).copies r true

/-! ### Tallies (R588) -/

/-- R588: every tally open for SPLIT_LINES line times closes. -/
def State.tallySplit (s : State) : State := s.closeTallies s.tallyOver

/-- TALLY_SPLIT (R588). -/
def execTallySplit (s : State) : Host.Outcome State Fault Refusal := .next (settle s s.tallySplit)

/-! ### Segments (R593, R594) -/

/-- The place of the oldest unexported record, counted over all records written. -/
def State.oldest (s : State) : Nat := s.led.written - s.led.waiting.length

/-- The bytes of a list of regions, one after another: those of a unit whose read failed are ones the spec leaves open (R495, log 3). -/
def State.readRegions (s : State) (fs : List MemFault) : List (Nat × Nat) → List Byte × State
  | [] => ([], s)
  | (a, n) :: rs =>
    let (bs, s) := s.undefined a (s.readMem a n) (readFails fs)
    let (cs, s) := s.readRegions fs rs
    (bs ++ cs, s)

/-- The raw bytes of the n oldest unexported records, read from the ring (R594). -/
def State.segmentRaw (s : State) (n : Nat) : List Byte := (s.readRegions [] (s.ringRegions s.oldest n)).1

/-- R593: a segment closes over the oldest records of the ring; it waits for packing while PACK is 1. -/
def State.segmentClose (s : State) : State :=
  match s.led.segment with
  | some _ => s
  | none =>
    if s.led.waiting.isEmpty then s
    else
      let n := min s.segRecords s.led.waiting.length
      { s with led := { s.led with segment := some { count := n, packing := bit (s.reg (CTRL pLEDGER)) 1, packed := none } } }

/-- SEGMENT_CLOSE (R593). -/
def execSegmentClose (s : State) : Host.Outcome State Fault Refusal := .next (settle s s.segmentClose)

/-- The segment header (R594). -/
def State.segmentHeader (s : State) (g : Segment) (payload raw : List Byte) : List Byte :=
  let first := s.led.waiting.headD { seq := 0, own := true, epoch := 0, lineHi := 0 }
  leBytes 2 0x4C44 ++ leBytes 2 s.deviceNo ++ leBytes 4 first.seq ++ leBytes 4 g.count ++
  leBytes 1 ((if g.packed.isSome then 1 else 0) + (if s.led.gap then 2 else 0)) ++ leBytes 3 0 ++
  leBytes 4 payload.length ++ leBytes 4 (crc32c raw) ++ leBytes 4 first.epoch ++ leBytes 2 first.lineHi ++ leBytes 2 0

/-- A byte list cut in pieces of 32 bytes, the last filled with zero bytes. -/
def slots32 : Nat → List Byte → List (List Byte)
  | 0, _ => []
  | n + 1, bs => (bs.take 32 ++ List.replicate (32 - (bs.take 32).length) 0) :: slots32 n (bs.drop 32)

/-- The pack area of the ledger ring (R592). -/
def State.packArea (s : State) : Nat := s.ringBase + (s.active LEDGER.RING_SIZE - 4) * 2 ^ 20

/-- Device memory that the export of a segment reads: its records, and its packed bytes. -/
def State.segmentRegions (s : State) (g : Segment) : List (Nat × Nat) :=
  s.ringRegions s.oldest g.count ++ (g.packed.map fun n => (s.packArea, n)).toList

/-- R594, R596: a closed segment that is not being packed goes to queue 0 when the queue has room for all of it, once the ring's memory serves
requests (R500, R505). -/
def State.segmentExport (s : State) (mem : MemRep) : State :=
  match s.led.segment with
  | none => s
  | some g =>
    let len := g.packed.getD (32 * g.count)
    let n := ceilDiv (32 + len) 32
    if g.packing || !bit (s.reg (LEDGER.Q_FILTER 0)) 31 || s.queueFree 0 < n || !s.served (s.segmentRegions g) then s
    else
      let s := (s.touch (s.segmentRegions g)).memReport .ledger mDMA mem
      let (raw, s) := s.readRegions mem.faults (s.ringRegions s.oldest g.count)
      let (payload, s) := match g.packed with
        | none => (raw, s)
        | some k => s.readRegions mem.faults [(s.packArea, k)]
      let item := s.segmentHeader g payload raw ++ payload
      let s := (slots32 n item).foldl (fun s x => s.queuePut 0 x) s
      let s := (s.bump LEDGER.SEGMENTS 1).raise pLEDGER 8
      let s : State := { s with led := { s.led with waiting := s.led.waiting.drop g.count, segment := none, gap := false, overrun := false } }
      if s.queueFree 0 = 0 then s.error pDMA E.QUEUE_OVERFLOW [] else s

/-- SEGMENT_EXPORT (R594). -/
def execSegmentExport (mem : MemRep) (s : State) : Host.Outcome State Fault Refusal := .next (settle s (s.segmentExport mem))

end Sys2Proof.Machine
end

