-- ==== Sys2Proof/Machine/Peers.lean ====
section
/-! DEFINITION. Peer chains: lanes and sides, delivery, messages and letter fragments (R391 to R409). -/

namespace Sys2Proof.Machine

/-- Link states of a peer lane (R393, R394; log 23). -/
def pOFF : Nat := 0
def pTRAIN : Nat := 1
def pALIGN : Nat := 2
def pACTIVE : Nat := 3
def pSPARE : Nat := 4
def pLOST : Nat := 5

/-- Side of a peer lane, and its index on the side (R355). -/
def laneSide (n : Nat) : Nat := (n - 18) / 3
def laneIndex (n : Nat) : Nat := (n - 18) % 3

/-- LINK_CFG.ACTIVE as the lock search of a lane took it (R408): 0 and 3 act as 2. -/
def State.activeLanes (s : State) (n : Nat) : Nat := if bits (s.laneOf n).linkCfg 17 16 = 1 then 1 else 2

/-! ### Sides going down (R396, R399, R406) -/

/-- R399, R406: what a side loses as it goes DOWN. -/
def Side.cleared (d : Side) : Side := { d with up := false, unacked := [], ahead := [], queue := [], partials := [] }

/-- R396: a side goes DOWN. -/
def State.sideDown (s : State) (d : Nat) : State :=
  if (s.sideOf d).up then
    let dev := (s.sideOf d).peerDev
    ((((s.setSide d Side.cleared).error pPEER E.PEER_LOST [.f 1 d, .f 2 dev]).bump PEER.LOSSES 1).raise pPEER 2).forwardPump
  else s

/-- PEER_LOST (R396). -/
def execPeerLost (side : Fin 2) (s : State) : Host.Outcome State Fault Refusal := .next (settle s (s.sideDown side))

/-- A side goes DOWN without a PEER_LOST record: IRQ_RAW.LOST alone (R408, R612). -/
def State.sideDark (s : State) (d : Nat) : State :=
  if (s.sideOf d).up then ((s.setSide d Side.cleared).raise pPEER 2).forwardPump else s

/-- R408: while CTRL.EN is 0, both sides are DOWN. -/
def State.peersDisabled (s : State) : State := if s.enabled pPEER then s else (s.sideDark 0).sideDark 1

/-! ### Lanes of a side (R393, R394) -/

/-- R393: usable lanes in ALIGN become ACTIVE or SPARE, lower indices first. -/
def State.usableLanes (s : State) (d : Nat) : State :=
  (List.range 3).foldl (fun s i =>
    let n := sideBase d + i
    let l := s.laneOf n
    if l.link = pALIGN ∧ l.rxLock ∧ bit (s.sideOf d).locks i then
      s.setLane n fun l => { l with link := if (s.sideLanes d pACTIVE).length < s.activeLanes n then pACTIVE else pSPARE }
    else s) s

/-- R394: an ACTIVE or SPARE lane is lost; the lowest-numbered SPARE lane takes an ACTIVE lane's place. -/
def State.peerLaneLost (s : State) (n : Nat) : State :=
  let d := laneSide n
  let st := (s.laneOf n).link
  if st = pACTIVE ∨ st = pSPARE then
    let s := s.setLane n fun l => { l with link := pLOST }
    let s := if st = pACTIVE then
        match (s.sideLanes d pSPARE).head? with
        | some r => s.setLane r fun l => { l with link := pACTIVE }
        | none => s
      else s
    if (s.sideLanes d pACTIVE).isEmpty then s.sideDown d else s
  else s

/-! ### Hellos (R392, R395) -/

/-- FWD_LIMIT that this device sends on a side (R405). -/
def State.fwdLimitOut (s : State) (d : Nat) : Nat :=
  ((s.sideOf d).fwdLeft + bits (s.active PEER.FWD_SIZE) 8 0 * 2 ^ 20 * 4 / 5) % 2 ^ 32

/-- The hello of a side lane (R392). -/
def State.helloContent (s : State) (d i : Nat) : List Byte :=
  let locks := (List.range 3).foldl (fun v j => if (s.laneOf (sideBase d + j)).rxLock then v + 2 ^ j else v) 0
  leBytes 2 s.deviceNo ++ leBytes 1 s.chainPos ++ leBytes 1 i ++ leBytes 1 locks ++ leBytes 3 0 ++ leBytes 4 (s.fwdLimitOut d) ++
  leBytes 4 (s.laneOf (sideBase d + i)).idles ++ List.replicate 624 0

/-- A peer lane sends codewords. -/
def State.peerSends (s : State) (n : Nat) : Bool := let l := (s.laneOf n).link; l == pALIGN || l == pACTIVE || l == pSPARE

/-- An IDLE codeword on a peer lane: the hello of its side (R391, R392). -/
def State.peerIdle (s : State) (n : Nat) : State :=
  let d := laneSide n
  s.sendIdle n (peerHeader tyIDLE 0 (s.sideOf d).ack) (s.helloContent d (laneIndex n))

/-- HELLO_SEND (R392). -/
def State.helloSend (s : State) (i : Nat) : State := if s.peerSends (18 + i) then s.peerIdle (18 + i) else s

/-- HELLO_SEND (R392). -/
def execHelloSend (lane : Fin 6) (s : State) : Host.Outcome State Fault Refusal := .next (settle s (s.helloSend lane))

/-- R401, R405: PEER_MSG_BAD with a message header. -/
def State.msgBad (s : State) (header : List Byte) : State :=
  ((s.error pPEER E.PEER_MSG_BAD [.f 8 (leNat (header.take 8))]).bump PEER.MSG_BADS 1).raise pPEER 4

/-- The chain position across a side, where it lies in the chain (R395). -/
def State.neighbourPos (s : State) (d : Nat) : Option Nat :=
  if d = 0 then (if 0 < s.chainPos ∧ s.chainPos ≤ s.chainLen then some (s.chainPos - 1) else none)
  else if s.chainPos + 1 < s.chainLen then some (s.chainPos + 1) else none

/-- R395: a hello names the device and the position expected across its side. -/
def State.helloValid (s : State) (d : Nat) (c : List Byte) : Bool :=
  match s.neighbourPos d with
  | none => false
  | some p => bits (s.active (PEER.POS_DEV p)) 9 0 == fld c 0 2 && fld c 2 1 == p

/-- Acknowledged codewords leave (R397). -/
def ackDrop (ack : Nat) (l : List (Nat × List Byte)) : List (Nat × List Byte) :=
  match l.findIdx? fun c => c.1 == ack with
  | none => l
  | some i => l.drop (i + 1)

/-- An ACK of the other end is taken. -/
def State.ackTaken (s : State) (d ack : Nat) : State := (s.setSide d fun x => { x with unacked := ackDrop ack x.unacked }).peerPump d |>.forwardPump

/-- R397: a side becomes UP and starts from SEQ 0 with nothing carried over (R407). -/
def State.sideUp (s : State) (d : Nat) : State :=
  (s.setSide d fun x => { x.cleared with up := true, nextSeq := 0, ack := 511, fwdSent := 0, fwdLeft := 0 }).raise pPEER 3

/-- R394: lanes whose bit a hello clears are lost. -/
def State.clearedLanes (s : State) (d locks : Nat) : State :=
  (List.range 3).foldl (fun s i => if bit locks i then s else s.peerLaneLost (sideBase d + i)) s

/-- A decoded codeword that is acted on leaves the queue of its side (R392). -/
def State.rxTaken (s : State) (n h : Nat) (c : List Byte) : State :=
  { s with peers := { s.peers with rxq := s.peers.rxq.erase (n, h, c) } }

/-- HELLO: an IDLE codeword, whose header carries ACK (R391, R393 to R397, R404). -/
def State.hello (s : State) (i h : Nat) (c : List Byte) : State :=
  let n := 18 + i
  let d := laneSide n
  let ack := hdrAck h
  if (s.laneOf n).rxLock ∧ hdrType h = tyIDLE then
    if s.helloValid d c then
      let s := s.setSide d fun x => { x with locks := fld c 4 1, peerDev := fld c 0 2 % 1024 }
      let s := (s.clearedLanes d (fld c 4 1)).usableLanes d
      let s := if !(s.sideOf d).up && s.enabled pPEER && (s.laneOf n).link == pACTIVE then s.sideUp d else s
      (s.setSide d fun x => { x with fwdLimit := fld c 8 4 }).ackTaken d ack
    else s.msgBad c
  else s

/-- HELLO (R395). -/
def execHello (lane : Fin 6) (header : BitVec 20) (content : List Byte) (s : State) : Host.Outcome State Fault Refusal :=
  .next (settle s ((s.rxTaken (18 + lane) header.toNat content).hello lane header.toNat content))

/-! ### Messages (R400 to R403) -/

/-- Body size of a fixed-size kind (R400). -/
def fixedBody (kind : Nat) : Option Nat :=
  match kind with
  | 1 | 2 => some 16
  | 3 => some 32
  | 4 => some 16
  | 5 => some 32
  | _ => none

/-- R401: a message is well formed; `m` starts at its header and runs to the end of the content. -/
def messageOk (m : List Byte) : Bool :=
  let kind := fld m 0 1
  let dest := fld m 2 2
  let len := fld m 6 2
  decide (1 ≤ kind) && decide (kind ≤ 6) &&
  (match fixedBody kind with
   | some n => len == n
   | none => decide (9 ≤ len) && decide (len ≤ 624)) &&
  decide (8 + len ≤ m.length) && !(bit dest 14 && bit dest 15) && decide (fld m 1 1 ≤ 14) && bits dest 13 10 == 0 &&
  bits (fld m 4 2) 15 10 == 0 && bodyClear kind ((m.drop 8).take len)
where
  /-- The reserved bits of a body are 0: bytes 11 to 15 of a VERDICT, and byte 10 too of a MARK (R403); those of a postcard (R303) and of a
  countersign (R266). -/
  bodyClear (kind : Nat) (b : List Byte) : Bool :=
    if kind = 1 then (b.drop 11).all (· == 0)
    else if kind = 2 then (b.drop 10).all (· == 0)
    else if kind = 3 then bits (fld b 4 2) 15 10 == 0 && decide (fld b 6 1 < 8) && fld b 7 1 == 0 && fld b 14 2 == 0
    else if kind = 4 then bits (fld b 12 2) 15 10 == 0 && decide (fld b 14 1 < 2) && fld b 15 1 == 0
    else true

/-- The device takes a message. -/
def State.messageTaken (s : State) (d : Nat) (m : List Byte) : State :=
  ({ s with peers := { s.peers with inbox := s.peers.inbox ++ [(fld m 0 1, d, (m.drop 8).take (fld m 6 2))] } } : State).bump PEER.MSGS_TAKEN 1

/-- A message with one more hop, padded (R402). -/
def hopped (m : List Byte) : List Byte :=
  pad8 (m.take 1 ++ leBytes 1 (fld m 1 1 + 1) ++ (m.drop 2).take (6 + fld m 6 2))

/-- R402: a message is passed on toward a side. -/
def State.passOn (s : State) (d : Nat) (m : List Byte) : State :=
  if (s.sideOf d).up then (s.bump PEER.PASSED 1).peerQueue d (fld m 0 1) (hopped m) else s.peerQueue d (fld m 0 1) (hopped m)

/-- R402: a message that arrived on side `d` is taken, passed on, or dropped. -/
def State.routeMessage (s : State) (d : Nat) (m : List Byte) : State :=
  let dest := fld m 2 2
  if bit dest 14 then s.messageTaken d m
  else if bit dest 15 then (s.messageTaken d m).passOn (1 - d) m
  else if bits dest 9 0 = s.deviceNo then s.messageTaken d m
  else match s.routeSide (bits dest 9 0) with
    | none => s.unrouted
    | some t => s.passOn t m

/-- The messages of a DATA codeword's content (R400, R401); `n` bounds their number. -/
def State.messages (d : Nat) : Nat → List Byte → State → State
  | 0, _, s => s
  | n + 1, c, s =>
    if c.length < 8 ∨ fld c 0 1 = 0 then s
    else
      let len := fld c 6 2
      let s := if messageOk c then s.routeMessage d (c.take (8 + len)) else s.msgBad c
      if c.length < 8 + len then s else State.messages d n (c.drop ((8 + len + 7) / 8 * 8)) s

/-- Every message of a content. -/
def State.allMessages (s : State) (d : Nat) (c : List Byte) : State := s.messages d 80 c

/-! ### Delivery (R397) -/

/-- Codewords held ahead that now follow in order are applied; `n` bounds them. -/
def State.drainAhead (d : Nat) : Nat → State → State
  | 0, s => s
  | n + 1, s =>
    let next := ((s.sideOf d).ack + 1) % 512
    match (s.sideOf d).ahead.find? fun c => c.1 == next with
    | none => s
    | some c => State.drainAhead d n ((s.setSide d fun x => { x with ack := next, ahead := x.ahead.erase c }).allMessages d c.2)

/-- PEER_DATA_CODEWORD: its header carries SEQ and ACK (R391, R397). -/
def State.peerDataIn (s : State) (i h : Nat) (c : List Byte) : State :=
  let n := 18 + i
  let d := laneSide n
  let l := (s.laneOf n).link
  let seq := hdrSeq h
  if (l = pACTIVE ∨ l = pSPARE) ∧ (s.sideOf d).up ∧ hdrType h = tyDATA then
    let s := s.ackTaken d (hdrAck h)
    let gap := (seq + 1024 - (s.sideOf d).ack - 1) % 512
    if gap = 0 then State.drainAhead d 32 ((s.setSide d fun x => { x with ack := seq }).allMessages d c)
    else if gap ≤ 32 ∧ !((s.sideOf d).ahead.any fun a => a.1 == seq) then s.setSide d fun x => { x with ahead := x.ahead ++ [(seq, c)] }
    else s
  else s

/-- PEER_DATA_CODEWORD (R397). -/
def execPeerDataCodeword (lane : Fin 6) (header : BitVec 20) (content : List Byte) (s : State) : Host.Outcome State Fault Refusal :=
  .next (settle s (((s.wakeEvent wakePEER).rxTaken (18 + lane) header.toNat content).peerDataIn lane header.toNat content))

/-- PEER_RETRY: every unacknowledged codeword of a side is sent again, oldest first (R397). -/
def State.peerRetry (s : State) (d : Nat) : State :=
  if (s.sideOf d).up then
    (s.sideOf d).unacked.foldl (fun s c =>
      match s.dataLane d c.1 with
      | none => s
      | some n => (s.sendCodeword n (peerHeader tyDATA c.1 (s.sideOf d).ack) (.bytes c.2)).bump PEER.RETRANSMITS 1) s
  else s

/-- PEER_RETRY (R397). -/
def execPeerRetry (side : Fin 2) (s : State) : Host.Outcome State Fault Refusal := .next (settle s (s.peerRetry side))

/-- A message that has been acted on leaves the queue of messages taken. -/
def State.inboxTaken (s : State) (kind : Nat) (body : List Byte) : State :=
  match s.peers.inbox.find? fun e => e.1 == kind && e.2.2 == body with
  | none => s
  | some e => { s with peers := { s.peers with inbox := s.peers.inbox.erase e } }

/-- TALLY_MESSAGE: the collector takes a relayed record, once its ring serves requests (R590, R500, R505). -/
def State.tallyMessage (s : State) (record : List Byte) (mem : MemRep) : State :=
  let s := if s.enabled pLEDGER then s.flushHeld else s
  if s.ringServes 1 then
    let at_ := s.ringRegions s.led.written 1
    let t := ((s.memReport .ledger mDMA mem).inboxTaken 5 record).relayedIn record
    if s.enabled pLEDGER then t.spoilWrites mem.faults at_ else t
  else s

/-- TALLY_MESSAGE (R590). -/
def execTallyMessage (record : List Byte) (mem : MemRep) (s : State) : Host.Outcome State Fault Refusal :=
  .next (settle s (s.tallyMessage record mem))

/-! ### Letters over the chain (R404, R405) -/

/-- First device address of a side's forward buffer, and its size (R408). -/
def State.fwdBase (s : State) (d : Nat) : Nat :=
  s.active PEER.FWD_LO + s.active PEER.FWD_HI % 16 * 2 ^ 32 + d * bits (s.active PEER.FWD_SIZE) 8 0 * 2 ^ 20
def State.fwdBytes (s : State) : Nat := bits (s.active PEER.FWD_SIZE) 8 0 * 2 ^ 20

/-- Device memory of `n` bytes of a forward buffer, which wrap at its end. -/
def State.fwdRegions (s : State) (d o n : Nat) : List (Nat × Nat) :=
  let size := s.fwdBytes
  if size = 0 then []
  else
    let o := o % size
    let k := min n (size - o)
    [(s.fwdBase d + o, k), (s.fwdBase d, n - k)]

/-- Bytes written in a forward buffer. -/
def State.fwdWrite (s : State) (d o : Nat) (bs : List Byte) : State :=
  let rs := s.fwdRegions d o bs.length
  (s.touch rs).storeRegions mDMA [] rs bs
/-- Bytes read from a forward buffer. -/
def State.fwdRead (s : State) (d o n : Nat) : List Byte := s.loadRegions (s.fwdRegions d o n) 0 n

/-- Where a fragment goes: the buffer offset and the size of its letter; none where it does not follow the bytes so far (R405). -/
def Side.fragPlace (x : Side) (src off total : Nat) : Option (Nat × Nat) :=
  if off = 0 then some (x.fwdPos, total)
  else match x.partials.find? fun p => p.1 == src with
    | none => none
    | some p => if p.2.2.2 = off then some (p.2.1, p.2.2.1) else none

/-- Device memory that a fragment writes: its bytes, and the pad after the last ones (R405). -/
def State.fragRegions (s : State) (d src : Nat) (body : List Byte) : List (Nat × Nat) :=
  match (s.sideOf d).fragPlace src (fld body 0 4) (fld body 4 4) with
  | none => []
  | some (o, total) =>
    let off := fld body 0 4
    let n := off + (body.length - 8)
    s.fwdRegions d (o + off) (if total ≤ n then (total + 7) / 8 * 8 - off else n - off)

/-- LETTER_FRAGMENT (R405): a fragment joins the letter of its SRC, or makes it be discarded. -/
def State.letterFragment (s : State) (d src : Nat) (body : List Byte) : State :=
  let off := fld body 0 4
  let total := fld body 4 4
  let bytes := body.drop 8
  let sd := s.sideOf d
  let cur := sd.partials.find? fun p => p.1 == src
  let rest := sd.partials.filter fun p => p.1 != src
  -- bytes of a letter that is discarded leave the buffer
  let gone := match cur with
    | none => 0
    | some p => if off = p.2.2.2 ∧ off ≠ 0 then 0 else p.2.2.2
  let s := s.setSide d fun x => { x with fwdLeft := (x.fwdLeft + gone) % 2 ^ 32 }
  let header := peerMessage 6 0 s.deviceNo src body
  match sd.fragPlace src off total with
  | none => (s.setSide d fun x => { x with partials := rest, fwdLeft := (x.fwdLeft + bytes.length) % 2 ^ 32 }).msgBad header
  | some (o, total) =>
    let s := if 0 < gone then s.msgBad header else s
    let n := off + bytes.length
    let padded := (total + 7) / 8 * 8
    let s := s.fwdWrite d (o + off) bytes
    let s := if off = 0 then s.setSide d fun x => { x with fwdPos := x.fwdPos + padded } else s
    if total ≤ n then
      let s := s.fwdWrite d (o + total) (List.replicate (padded - total) 0)
      s.setSide d fun x => { x with partials := rest, letters := x.letters ++ [(o, total)] }
    else s.setSide d fun x => { x with partials := rest ++ [(src, o, total, n)] }

/-- LETTER_FRAGMENT, once the forward buffer serves requests (R405, R500, R505); the writes are the mailbag's (DESIGN CHOICE, log 74: the table of
R495 names no requester for them). -/
def State.fragmentIn (s : State) (d src : Nat) (body : List Byte) (mem : MemRep) : State :=
  let rs := s.fragRegions d src body
  if s.served rs then (((s.inboxTaken 6 body).memReport .mailbag mDMA mem).letterFragment d src body).spoilWrites mem.faults rs else s

/-- LETTER_FRAGMENT (R405). -/
def execLetterFragment (side : Fin 2) (src : Fin 1024) (body : List Byte) (mem : MemRep) (s : State) : Host.Outcome State Fault Refusal :=
  .next (settle s (s.fragmentIn side src body mem))

/-! ### Registers (R408) -/

/-- Bits of the lanes of a side that are in a link state. -/
def State.sideBits (s : State) (d st : Nat) : Nat := (s.sideLanes d st).foldl (fun v n => v + 2 ^ laneIndex n) 0

/-- What a read of a derived PEER register returns. -/
def State.readPeer (s : State) (a : Nat) : Option Nat :=
  if a = PEER.SIDE 0 ∨ a = PEER.SIDE 1 then
    let d := if a = PEER.SIDE 0 then 0 else 1
    some ((if (s.sideOf d).up then 2 ^ 31 else 0) + (s.sideOf d).peerDev * 2 ^ 20 + s.sideBits d pACTIVE * 2 ^ 16 +
      s.sideBits d pSPARE * 2 ^ 12 + s.sideBits d pLOST * 2 ^ 8)
  else none

end Sys2Proof.Machine
end

