-- ==== Sys2Proof/Machine/Lanes.lean ====
section
/-! DEFINITION. Serial lanes: bring-up, training frames, receivers and the eye scan (R355 to R390). -/

namespace Sys2Proof.Machine

/-! ### Groups and order (R355, R375, R376) -/

/-- Lane group of a lane below 24, and its base and size (R355). -/
def laneGroup (n : Nat) : Nat := if n < 9 then 0 else if n < 18 then 1 else if n < 21 then 2 else 3
def groupBase (k : Nat) : Nat := if k = 0 then 0 else if k = 1 then 9 else if k = 2 then 18 else 21
def groupSize (k : Nat) : Nat := if k < 2 then 9 else 3
/-- The lanes of a group. -/
def groupLanes (k : Nat) : List Nat := (List.range (groupSize k)).map (groupBase k + ·)
/-- The mirror of a lane or pair in its group (R375). -/
def mirror (n : Nat) : Nat := let k := laneGroup n; 2 * groupBase k + groupSize k - 1 - n

/-- Order of a group. -/
def State.orderOf (s : State) (k : Nat) : LaneOrder := s.lanes.order.getD k {}
/-- Order of a group changed. -/
def State.setOrder (s : State) (k : Nat) (f : LaneOrder → LaneOrder) : State :=
  { s with lanes := { s.lanes with order := modAt s.lanes.order k f } }
/-- RX_PHYS and TX_PHYS of a lane (R356). -/
def State.rxPhys (s : State) (n : Nat) : Nat := if n < 24 ∧ (s.orderOf (laneGroup n)).rxRev then mirror n else n
def State.txPhys (s : State) (n : Nat) : Nat := if n < 24 ∧ (s.orderOf (laneGroup n)).txRev then mirror n else n
/-- Receiver findings of a pair. -/
def State.pairOf (s : State) (p : Nat) : RxPair := s.lanes.pair.getD p {}
/-- Receiver findings of a pair changed. -/
def State.setPair (s : State) (p : Nat) (f : RxPair → RxPair) : State := { s with lanes := { s.lanes with pair := modAt s.lanes.pair p f } }

/-- TX_ID of a lane: the lane number on head lanes, the index on peer lanes (R372). -/
def txIdOf (n : Nat) : Nat := if n < 18 then n else laneIndex n

/-- The lane is OFF: its link state is, or its bring-up state, as for a lane that was stopped while it carried traffic (R376, R394). -/
def State.laneOff (s : State) (n : Nat) : Bool :=
  let l := s.laneOf n
  if n < 24 then l.link == 0 || l.tstate == 0 else l.tstate == 0 || l.tstate == 7

/-- R376: a group whose lanes are all OFF forgets its order. -/
def State.forgetOrder (s : State) (n : Nat) : State :=
  if n < 24 ∧ (groupLanes (laneGroup n)).all s.laneOff then s.setOrder (laneGroup n) fun _ => {} else s

/-! ### Taps (R366, R367) -/

/-- A set of taps: PRE2, PRE1, MAIN, POST1, in the layout of TX_TAPS (R389). -/
def tapsWord (pre2 pre1 main post1 : Nat) : Nat := post1 * 2 ^ 24 + main * 2 ^ 16 + pre1 * 2 ^ 8 + pre2
def tapOf (w i : Nat) : Nat :=
  match i with
  | 0 => bits w 3 0
  | 1 => bits w 12 8
  | 2 => bits w 22 16
  | _ => bits w 28 24
/-- The limits of R367. -/
def tapsOk (w : Nat) : Bool :=
  decide (tapOf w 0 ≤ 8) && decide (tapOf w 1 ≤ 16) && decide (24 ≤ tapOf w 2) && decide (tapOf w 2 ≤ 64) && decide (tapOf w 3 ≤ 24) &&
  decide (tapOf w 0 + tapOf w 1 + tapOf w 2 + tapOf w 3 ≤ 64)
/-- The taps of a preset (R367). -/
def presetTaps (own : Nat) : Nat → Nat
  | 0 => if tapsOk own then own else tapsWord 0 0 64 0
  | 1 => tapsWord 0 0 64 0
  | 2 => tapsWord 0 6 52 6
  | _ => tapsWord 2 10 44 8
/-- Taps with tap `i` set. -/
def tapsPut (w i v : Nat) : Nat :=
  match i with
  | 0 => putField w 3 0 v
  | 1 => putField w 12 8 v
  | 2 => putField w 22 16 v
  | _ => putField w 28 24 v

/-- An eye scan ends with a result (R387, R388). -/
def State.esEnd (s : State) (result errors compared : Nat) : State :=
  let s : State := { s with lanes := { s.lanes with es := none } }
  let s := (s.setReg LANE.ES_STATUS (2 ^ 31 + result)).setReg LANE.ES_ERRORS (min errors 0xFFFFFFFF)
  ((s.setReg LANE.ES_BITS_LO (compared % 2 ^ 32)).setReg LANE.ES_BITS_HI (compared / 2 ^ 32 % 2 ^ 9)).raise pLANE 5

/-- UI that a scan of a DWELL compares (R387, R389). -/
def esUi (dwell : Nat) : Nat := 2 ^ min 40 (max 10 dwell)

/-- R388: a lane that stops, or that loses its CDR lock, during its eye scan ends it; the counts so far are open (log 3). -/
def State.esAbort (s : State) (n : Nat) : State :=
  match s.lanes.es with
  | none => s
  | some (m, dwell) =>
    if m = n then
      let (lo, s) := s.fresh
      let (hi, s) := s.fresh
      let (e, s) := s.fresh
      let ui := (hi * 2 ^ 32 + lo) % (esUi dwell + 1)
      s.esEnd 2 (e % (ui + 1)) ui
    else s

/-! ### Start, stop and failure (R368 to R370) -/

/-- Transmitters of head lanes are held OFF in SCRAPPED (R622). -/
def State.laneMayStart (s : State) (n : Nat) : Bool :=
  let l := s.laneOf n
  s.enabled pLANE &&
  (if n < 18 then (l.link == hOFF || l.link == hLOST || l.link == hFAILED) && s.life.st != 4
   else if n < 24 then l.link == pOFF || l.link == pLOST
   else l.tstate == 0 || l.tstate == 7)

/-- R368: bring-up of one lane begins. -/
def State.laneBegin (s : State) (n : Nat) : State :=
  let cfg := s.reg (LANE.LCFG n)
  let detect := decide (n < 24) && bit cfg 0
  let s : State := if n < 18 then { s with jl := { s.jl with groups := (headGroup n :: s.jl.groups).eraseDups } } else s
  let s := (s.esAbort n).setPair (s.rxPhys n) fun _ => {}
  let s := s.setLane n fun l => { tstate := 1, link := if n < 24 then 1 else 0, detect := detect, cfg := cfg, eq := l.eq, headLock := l.headLock,
                                  precodeTx := decide (n < 24) && !detect && bit cfg 8 }
  s.setReg (LANE.TX_NOW n) (presetTaps (s.reg (LANE.TX_TAPS n)) (bits cfg 5 4))

/-- Every OFF lane of a group begins (R376). -/
def State.groupBegin (s : State) (k : Nat) : State :=
  (groupLanes k).foldl (fun s n => if s.laneOff n && s.laneMayStart n then s.laneBegin n else s) s

/-- LCMD START (R368, R376). -/
def State.laneStart (s : State) (n : Nat) : State :=
  if s.laneMayStart n then
    let known := decide (n < 24) && (s.orderOf (laneGroup n)).known
    let s := s.laneBegin n
    if n < 24 ∧ bit (s.reg (LANE.LCFG n)) 0 ∧ !known then s.groupBegin (laneGroup n) else s
  else s

/-- LCMD_START (R368). -/
def execLcmdStart (lane : Fin 25) (s : State) : Host.Outcome State Fault Refusal := .next (settle s ((s.wakeEvent wakeREGISTER).laneStart lane))

/-- GSTART (R376). -/
def State.gstart (s : State) (groups : Nat) : State :=
  (List.range 4).foldl (fun s k => if bit groups k then s.groupBegin k else s) s

/-- GSTART (R376). -/
def execGstart (groups : BitVec 4) (s : State) : Host.Outcome State Fault Refusal := .next (settle s ((s.wakeEvent wakeREGISTER).gstart groups.toNat))

/-- LCMD STOP (R368): a lane that carries traffic is lost first, then powered down. -/
def State.laneStop (s : State) (n : Nat) : State :=
  let s := if n < 18 then s.headLaneLost n else if n < 24 then s.peerLaneLost n else s
  let s := (s.esAbort n).setLane n Lane.down
  let s := s.setPair (s.rxPhys n) fun _ => {}
  let s := if n = 24 then s.ethLinkTo 0 else s
  s.forgetOrder n

/-- LCMD_STOP (R368). -/
def execLcmdStop (lane : Fin 25) (s : State) : Host.Outcome State Fault Refusal := .next (settle s ((s.wakeEvent wakeREGISTER).laneStop lane))

/-- R389: while CTRL.EN is 0, every lane is held OFF. -/
def State.lanesDisabled (s : State) : State :=
  if s.enabled pLANE then s
  else (List.range 25).foldl (fun s n => ((s.laneStop n).setLane n fun l => { l with link := 0 }).forgetOrder n) s

/-- R370: bring-up fails; reason 1 TIMEOUT, 2 ORDER, 3 FREQ. -/
def State.laneFail (s : State) (n why : Nat) : State :=
  let s := s.setLane n fun l => { eq := l.eq, cfg := l.cfg, detect := l.detect, headLock := l.headLock, tstate := 7,
                                  failWhy := why, link := 0, rxLock := false }
  let s := (((s.error pLANE E.TRAIN_FAIL [.f 1 n]).bump (LANE.TRAIN_FAILS n) 1).raise pLANE 3).esAbort n
  s.forgetOrder n

/-- Code of a reason (R369). -/
def whyCode : TrainWhy → Nat
  | .timeout => 1
  | .order => 2
  | .freq => 3

/-- TRAIN_FAIL (R370): for a lane in bring-up. -/
def State.trainFail (s : State) (n : Nat) (why : TrainWhy) : State :=
  let t := (s.laneOf n).tstate
  if 1 ≤ t ∧ t ≤ 5 then s.laneFail n (whyCode why) else s

/-- TRAIN_FAIL (R370). -/
def execTrainFail (lane : Fin 25) (why : TrainWhy) (s : State) : Host.Outcome State Fault Refusal :=
  .next (settle s (s.trainFail lane why))

/-- R369, R380: DONE; the lane enters ALIGN of its link. -/
def State.laneDone (s : State) (n : Nat) : State :=
  let s := s.setLane n fun l => { l with
    tstate := 6, link := if n < 24 then 2 else 0, idles := 0, txPos := 0, txLast := if l.detect then 0 else l.txLast, rxLast := 0,
    idleRun := 0, frozen := false,
    precodeTx := decide (n < 24) && (if l.detect then l.partnerPrecodeReq else bit l.cfg 8),
    precodeRx := decide (n < 24) && (if l.detect then l.partnerPrecodeOn else bit l.cfg 8) }
  let s := if n < 24 then s.seekLock n else s
  let s := if n = 24 then s.ethLinkTo 1 else s
  s.raise pLANE 2

/-- CDR_LOCK (R358, R369): the receiver of a lane locks to a partner of rate difference `ppm`, in 0.1 ppm. -/
def State.cdrLock (s : State) (n ppm : Nat) : State :=
  let l := s.laneOf n
  if l.tstate = 1 then
    let s := (s.setReg (LANE.RX_PPM n) ppm).setPair (s.rxPhys n) fun p => { p with cdr := true }
    if 3000 < (sInt 16 ppm).natAbs then s.laneFail n 3
    else if l.detect then s.setLane n fun l => { l with tstate := 2 }
    else s
  else s

/-- CDR_LOCK (R369). -/
def execCdrLock (lane : Fin 25) (ppm : BitVec 16) (s : State) : Host.Outcome State Fault Refusal :=
  .next (settle s (s.cdrLock lane ppm.toNat))

/-- BLIND_SETTLE_DONE (R369). -/
def State.blindDone (s : State) (n : Nat) : State :=
  let l := s.laneOf n
  if l.tstate = 1 ∧ !l.detect ∧ (s.pairOf (s.rxPhys n)).cdr then (s.adapt n).laneDone n else s

/-- BLIND_SETTLE_DONE (R369). -/
def execBlindSettleDone (lane : Fin 25) (s : State) : Host.Outcome State Fault Refusal := .next (settle s (s.blindDone lane))

/-! ### Training frames (R371 to R381) -/

/-- Requests of a frame: tap `i` asks 0 HOLD, 1 INC, 2 DEC; 3 acts as HOLD (R372). -/
def reqOf (fields i : Nat) : Nat := let v := bits fields (2 * i + 1) (2 * i); if v = 3 then 0 else v
/-- Status of tap `i` in a frame. -/
def stOf (fields i : Nat) : Nat := bits fields (17 + 2 * i) (16 + 2 * i)

/-- R377: the transmitter applies one step of one tap: the new taps and the tap's status. -/
def tapStep (w i req : Nat) : Nat × Nat :=
  let v := tapOf w i
  let w' := if req = 1 then tapsPut w i (v + 1) else if v = 0 then w else tapsPut w i (v - 1)
  if w' ≠ w ∧ tapsOk w' then (w', 1) else (w, if req = 1 then 3 else 2)

/-- R377, R378: the requests of a valid frame act on this side's transmitter. -/
def State.txRequests (s : State) (n fields : Nat) : State :=
  let l := s.laneOf n
  let asks := (List.range 4).filter fun i => reqOf fields i != 0
  if bit fields 8 then
    if l.txStatus = 0 then
      let k := max 1 (bits fields 10 9)
      (s.setReg (LANE.TX_NOW n) (presetTaps (s.reg (LANE.TX_TAPS n)) k)).setLane n fun l => { l with txStatus := 0x55 }
    else s
  else match asks with
    | [] => s.setLane n fun l => { l with txStatus := 0 }
    | [i] =>
      if bits l.txStatus (2 * i + 1) (2 * i) = 0 then
        let (w, st) := tapStep (s.reg (LANE.TX_NOW n)) i (reqOf fields i)
        (s.setReg (LANE.TX_NOW n) w).setLane n fun l => { l with txStatus := putField l.txStatus (2 * i + 1) (2 * i) st }
      else s
    | _ => s

/-- R379: the next single step that this receiver asks for; the receiver's own choice (log 3). -/
def State.nextRequest (s : State) (n : Nat) : State :=
  let (k, s) := s.fresh
  (s.setLane n fun l => { l with request := (1 + k / 4 % 2) * 4 ^ (k % 4), phase := 0, adaptFrames := 0, requests := l.requests + 1 }).bump
    (LANE.REQS n) 1

/-- R379: COEFF starts with a request for the preset of LCFG.TX_PRESET. -/
def State.coeffBegin (s : State) (n : Nat) : State :=
  let k := bits (s.laneOf n).cfg 5 4
  (s.setLane n fun l => { l with tstate := 3, request := 2 ^ 8 + k * 2 ^ 9, phase := 0, requests := 1 }).bump (LANE.REQS n) 1

/-- R369: this side is ready: WAIT_PARTNER, or HOLD where the partner is ready already. -/
def State.rxIsReady (s : State) (n : Nat) : State :=
  s.setLane n fun l => { l with tstate := if l.partnerReady then 5 else 4, rxReady := true }

/-- R377, R379: what a receiver in COEFF does with the statuses of a valid frame. -/
def State.coeffStep (s : State) (n fields : Nat) : State :=
  let l := s.laneOf n
  let updated := (List.range 4).any fun i => stOf fields i != 0
  if l.phase = 0 then (if updated then s.setLane n fun l => { l with request := 0, phase := 1 } else s)
  else if l.phase = 1 then (if updated then s else s.setLane n fun l => { l with phase := 2, adaptFrames := 0 })
  else if l.adaptFrames < 7 then s.setLane n fun l => { l with adaptFrames := l.adaptFrames + 1 }
  else if 1024 ≤ l.requests then s.rxIsReady n
  else s.nextRequest n

/-- R375: the receive order of a group is fixed by the first pair to pass 3 frames; none where the TX_ID fits neither order. -/
def State.fixRx (s : State) (p id : Nat) : Option State :=
  let k := laneGroup p
  let o := s.orderOf k
  if o.known then
    if id = txIdOf (if o.rxRev then mirror p else p) then some s else none
  else if id = txIdOf p then some (s.setOrder k fun o => { o with known := true, rxRev := false })
  else if id = txIdOf (mirror p) then some (s.setOrder k fun o => { o with known := true, rxRev := true })
  else none

/-- R375: the transmit order by SEEN_ID, as a frame received on logical lane `n` names it. Once a reversed order has been applied, the partner's
receiver sees the lane's own TX_ID; frames on their way may still name the mirror. -/
def State.fixTx (s : State) (n seen : Nat) : Option State :=
  let k := laneGroup n
  let o := s.orderOf k
  if o.txKnown then
    if seen = txIdOf n ∨ (o.txRev ∧ seen = txIdOf (mirror n)) then some s else none
  else if seen = txIdOf n then some (s.setOrder k fun o => { o with txKnown := true, txRev := false })
  else if seen = txIdOf (mirror n) then some (s.setOrder k fun o => { o with txKnown := true, txRev := true })
  else none

/-- The fields of the partner's latest valid frame that the lane keeps (R369, R380). -/
def State.keepFields (s : State) (n fields : Nat) : State :=
  s.setLane n fun l => { l with partnerPrecodeReq := bit fields 11, partnerReady := bit fields 12, partnerPrecodeOn := bit fields 24 }

/-- What every valid frame does to the lane: its fields are kept, its requests act on the transmitter (R377), and a receiver in COEFF adapts
(R382). -/
def State.frameTaken (s : State) (n fields : Nat) : State :=
  let s := (s.keepFields n fields).txRequests n fields
  if (s.laneOf n).tstate = 3 then s.adapt n else s

/-- What logical lane `n` does with a valid frame once its order is known. -/
def State.laneFrame (s : State) (n fields : Nat) : State :=
  let s := s.frameTaken n fields
  let checked : Option State := if bit fields 38 then (s.fixTx n (bits fields 37 33)).map fun s => s.setLane n fun l => { l with seenOk := true }
                                else some s
  match checked with
  | none => s.laneFail n 2
  | some s =>
    let l := s.laneOf n
    if l.tstate = 2 then (if l.seenOk ∧ (s.pairOf (s.rxPhys n)).frames = 3 then s.coeffBegin n else s)
    else if l.tstate = 3 then s.coeffStep n fields
    else if l.tstate = 4 ∧ bit fields 12 then s.setLane n fun l => { l with tstate := 5 }
    else s

/-- The lane whose receiver is physical pair `p` is brought up in DETECT mode and has CDR lock: it seeks and takes training frames (R369). -/
def State.takesFrames (s : State) (p : Nat) : Bool :=
  let l := s.laneOf (s.rxPhys p)
  l.detect && decide (2 ≤ l.tstate) && decide (l.tstate ≤ 5)

/-- TRAINING_FRAME: a frame on physical pair `p`, with its polarity, fields and check as received (R371 to R380). A BLIND receiver finds none
(R370). -/
def State.trainingFrame (s : State) (p : Nat) (inverted : Bool) (fields check : Nat) : State :=
  let pr := s.pairOf p
  if !s.takesFrames p then s
  else if frameCheck fields = check ∧ (pr.frames = 0 ∨ pr.polInv = inverted) then
    let s := s.setPair p fun q => { q with frames := min 3 (q.frames + 1), polInv := inverted, txId := bits fields 32 28 }
    if (s.pairOf p).frames < 3 then (if (s.orderOf (laneGroup p)).known then s.frameTaken (s.rxPhys p) fields else s)
    else match s.fixRx p (bits fields 32 28) with
      | none => s.laneFail (s.rxPhys p) 2
      | some s => if s.takesFrames p then s.laneFrame (s.rxPhys p) fields else s
  else if pr.frames < 3 then s.setPair p fun q => { q with frames := 0 } else s

/-- TRAINING_FRAME (R377). -/
def execTrainingFrame (lane : Fin 24) (inverted : Bool) (fields : BitVec 48) (check : BitVec 16) (s : State) :
    Host.Outcome State Fault Refusal := .next (settle s (s.trainingFrame lane inverted fields.toNat check.toNat))

/-- RX_READY (R379). -/
def State.rxReadyCmd (s : State) (n : Nat) : State := if (s.laneOf n).tstate = 3 then s.rxIsReady n else s

/-- RX_READY (R379). -/
def execRxReady (lane : Fin 24) (s : State) : Host.Outcome State Fault Refusal := .next (settle s (s.rxReadyCmd lane))

/-- HOLD_DONE (R369). -/
def State.holdDone (s : State) (n : Nat) : State := if (s.laneOf n).tstate = 5 then s.laneDone n else s

/-- HOLD_DONE (R369). -/
def execHoldDone (lane : Fin 24) (s : State) : Host.Outcome State Fault Refusal := .next (settle s (s.holdDone lane))

/-- The fields of the training frame that lane `n` sends (R372). -/
def State.sentFields (s : State) (n : Nat) : Nat :=
  let l := s.laneOf n
  let p := s.pairOf (s.rxPhys n)
  l.request + (if bit l.cfg 8 then 2 ^ 11 else 0) + (if l.rxReady then 2 ^ 12 else 0) + l.txStatus * 2 ^ 16 +
  (if l.partnerPrecodeReq then 2 ^ 24 else 0) + txIdOf n * 2 ^ 28 + (if p.frames = 3 then p.txId * 2 ^ 33 + 2 ^ 38 else 0)

/-! ### Receivers (R329, R363, R384) -/

/-- A receiver loses lock: a head lane is lost under R348, a peer lane under R394; a lane in ALIGN seeks lock again. -/
def State.lockLost (s : State) (n : Nat) : State :=
  let s := s.seekLock n
  if n < 18 then s.headLaneLost n else s.peerLaneLost n

/-- LANE_LOCK: the receiver of a lane in ALIGN takes lock: LOCK_GOOD good codewords have come (R329, R322, R393). -/
def State.laneLock (s : State) (n : Nat) : State :=
  if (s.laneOf n).tstate = 6 ∧ (s.laneOf n).link = 2 then
    let s := s.setLane n fun l => { l with rxLock := true, badRun := 0 }
    if n < 18 then s.headAlign n else s.usableLanes (laneSide n)
  else s

/-- LANE_LOCK (R329). -/
def execLaneLock (lane : Fin 24) (s : State) : Host.Outcome State Fault Refusal := .next (settle s (s.laneLock lane))

/-- R329: a receiver that seeks lock goes on to the next of the 34 word offsets, and begins its run anew (the order is log 75). -/
def State.nextOffset (s : State) (n : Nat) : State :=
  s.setLane n fun l => { l with goodRun := 0, wordOffset := (l.wordOffset + 1) % 34 }

/-- R329: an uncorrectable codeword is dropped whole and counted; a locked receiver loses lock by LOCK_BAD of them in a row, and one that seeks
lock begins its run anew. -/
def State.uncorrectable (s : State) (n : Nat) : State :=
  let s := s.bump (if n < 18 then JLINK.UNCORR n else PEER.UNCORR) 1
  if (s.laneOf n).rxLock then
    let s := s.setLane n fun l => { l with badRun := l.badRun + 1, goodRun := 0 }
    if s.lockBad n ≤ (s.laneOf n).badRun then s.lockLost n else s
  else s.nextOffset n

/-- R329: a good codeword of a receiver that seeks lock: LOCK_GOOD in a row, with valid headers, take it. -/
def State.hunt (s : State) (n h : Nat) : State :=
  if headerValid n h then
    let s := s.setLane n fun l => { l with goodRun := l.goodRun + 1 }
    if s.lockGood n ≤ (s.laneOf n).goodRun then s.laneLock n else s
  else s.nextOffset n

/-- FREEZE_RUN: a value below 16 acts as 16 (R389). -/
def State.freezeRun (s : State) : Nat := max 16 (bits (s.reg LANE.ADAPT_CFG) 9 0)

/-- R382, R384, R385: the receiver adapts on a decoded codeword, unless it is frozen; a run of FILL and IDLE codewords freezes it at its current
values, and the first codeword of another TYPE lets it go on with the next. -/
def State.adaptRun (s : State) (n type : Nat) : State :=
  let l := s.laneOf n
  if type = tyFILL ∨ type = tyIDLE then
    let s := s.setLane n fun l => { l with idleRun := l.idleRun + 1 }
    if l.frozen then s
    else if s.freezeRun < l.idleRun + 1 ∧ !bit (s.reg LANE.ADAPT_CFG) 16 then
      (s.setLane n fun l => { l with frozen := true }).bump (LANE.FREEZES n) 1
    else s.adapt n
  else (if l.frozen then s else s.adapt n).setLane n fun l => { l with idleRun := 0, frozen := false }

/-- The twenty return messages of a DATA codeword's content, without those of MKIND 0 (R342). -/
def returnMessages (c : List Byte) : List (List Byte) :=
  ((List.range 20).map fun i => (c.drop (32 * i)).take 32).filter fun m => fld m 0 1 != 0

/-- R363: the content of a locked receiver's codeword enters the lane's receive queue, or is dropped whole where that is full. A FILL is dropped
after decoding. On head lanes only DATA carries return messages; on peer lanes DATA and IDLE are passed on, and act through
PEER_DATA_CODEWORD and HELLO. -/
def State.rxContent (s : State) (n h : Nat) (c : List Byte) (queueFull : Bool) : State :=
  let type := hdrType h
  if type = tyFILL then s
  else if queueFull then s.elasticDrop n
  else if n < 18 then
    if type = tyDATA then { s with jl := { s.jl with inbox := s.jl.inbox ++ (returnMessages c).map fun m => (n, m) } } else s
  else if type = tyCONTROL then s
  else { s with peers := { s.peers with rxq := s.peers.rxq ++ [(n, h, c)] } }

/-- The receive pair of a lane is inverted: as DETECT found it, or as LCFG says (R374, R389). -/
def State.rxInverted (s : State) (n : Nat) : Bool :=
  let l := s.laneOf n
  if l.detect then (s.pairOf (s.rxPhys n)).polInv else bit l.cfg 13

/-- RX_CODEWORD: the levels of one codeword at the receiver of a lane that seeks or holds lock (R324 to R329, R359, R360, R363, R384). -/
def State.rxCodeword (s : State) (n : Nat) (levels : List Nat) (queueFull : Bool) : State :=
  let l := s.laneOf n
  if l.tstate = 6 ∧ 2 ≤ l.link ∧ l.link ≤ 4 then
    let r := received (s.rxInverted n) l.precodeRx l.rxLast levels
    let s := s.setLane n fun l => { l with rxLast := r.2 }
    match r.1 with
    | none => (if l.frozen then s else s.adapt n).uncorrectable n
    | some (h, c, wrong) =>
      let s := if n < 18 then s.bump (JLINK.CORR_SYMS n) wrong else s
      let s := s.adaptRun n (hdrType h)
      if l.rxLock then (s.setLane n fun l => { l with badRun := 0 }).rxContent n h c queueFull else s.hunt n h
  else s

/-- RX_CODEWORD (R329). -/
def execRxCodeword (lane : Fin 24) (levels : List (BitVec 2)) (queueFull : Bool) (s : State) : Host.Outcome State Fault Refusal :=
  .next (settle s (s.rxCodeword lane (levels.map (·.toNat)) queueFull))

/-! ### Eye scan (R386 to R388) -/

/-- Bits of ES_CTRL with START. -/
def esCtrlMask : Nat := 0x801F0300

/-- R388: the lane of a scan has no signal: it is OFF, FAIL or not yet CDR-locked. -/
def State.esNoSignal (s : State) (n : Nat) : Bool :=
  let t := (s.laneOf n).tstate
  decide (25 ≤ n) || t == 0 || t == 7 || !(s.pairOf (s.rxPhys n)).cdr

/-- ES_START: a write of ES_CTRL (R387, R388). -/
def State.esStart (s : State) (v : Nat) : State :=
  let s := s.setReg LANE.ES_CTRL (putField v 31 31 0)
  let n := bits v 20 16
  if bit v 31 ∧ s.lanes.es = none then
    if s.esNoSignal n then s.esEnd 1 0 0
    else { s with lanes := { s.lanes with es := some (n, bits (s.reg LANE.ES_POINT) 29 24) } }
  else s

/-- ES_START (R387). -/
def execEsStart (ctrl : Word) (s : State) : Host.Outcome State Fault Refusal :=
  .next (settle s ((s.wakeEvent wakeREGISTER).esStart (ctrl.toNat &&& esCtrlMask)))

/-- ES_DONE: the scan ends OK after 2^DWELL UI, or ABORTED with the counts so far (R387, R388). -/
def State.esDone (s : State) (aborted : Bool) (errors compared : Nat) : State :=
  match s.lanes.es with
  | none => s
  | some (_, dwell) =>
    let ui := if aborted then min compared (esUi dwell) else esUi dwell
    s.esEnd (if aborted then 2 else 0) (min errors ui) ui

/-- ES_DONE (R387). -/
def execEsDone (aborted : Bool) (errors compared : Nat) (s : State) : Host.Outcome State Fault Refusal :=
  .next (settle s (s.esDone aborted errors compared))

/-! ### Registers (R389) -/

/-- The register of LANE at a page offset: lane and offset within the lane. -/
def laneRegOf (a : Nat) : Option (Nat × Nat) :=
  if LANE.LCFG 0 ≤ a ∧ a < LANE.LCFG 25 then some ((a - LANE.LCFG 0) / 0x40, (a - LANE.LCFG 0) % 0x40) else none

/-- A write of a LANE register, after the store of its bits. -/
def State.writeLane (s : State) (a v : Nat) : State :=
  if a = CTRL pLANE then s.lanesDisabled
  else if a = LANE.GSTART then (if bit v 8 then s.gstart (bits v 3 0) else s)
  else if a = LANE.ES_CTRL then s.esStart (v &&& esCtrlMask)
  else match laneRegOf a with
    | some (n, 4) =>
      if bit v 8 then (if bits v 1 0 = 0 then s.laneStart n else if bits v 1 0 = 1 then s.laneStop n else s) else s
    | _ => s

/-- LSTAT of a lane (R389). -/
def State.lstat (s : State) (n : Nat) : Nat :=
  let l := s.laneOf n
  let p := s.pairOf (s.rxPhys n)
  l.tstate * 2 ^ 29 + l.failWhy * 2 ^ 26 + (if p.polInv then 2 ^ 25 else 0) + (if l.precodeTx then 2 ^ 24 else 0) +
  (if l.precodeRx then 2 ^ 23 else 0) + (if l.frozen then 2 ^ 22 else 0) + p.txId * 2 ^ 16 + s.txPhys n * 2 ^ 8 + s.rxPhys n

/-- A DFE tap as DFE_VALUE shows it: tap 1 is an s8, taps 2 to 12 are s6 values (R382, R389). -/
def Lane.dfe (l : Lane) (t : Nat) : Nat :=
  let v := l.eq.getD t 0
  if t = 0 ∨ 12 < t then 0 else if t = 1 then v % 2 ^ 8 else uInt 8 (sInt 6 (v % 2 ^ 6))

/-- The transmit taps that a TX_NOW register at `a` shows: in low-power idle only MAIN is not 0 (R381, R607). -/
def State.tapsNow (s : State) (a : Nat) : Nat := if s.lowPower then bits (s.reg a) 22 16 * 2 ^ 16 else s.reg a

/-- What a read of a derived LANE register returns. -/
def State.readLane (s : State) (a : Nat) : Option Nat :=
  if a = LANE.DFE_VALUE then
    let v := s.reg LANE.DFE_SEL
    some ((s.laneOf (bits v 20 16)).dfe (bits v 3 0))
  else if a = LANE.ES_STATUS then some (s.reg a + if s.lanes.es.isSome then 2 ^ 30 else 0)
  else if a = STATUS pLANE then some (s.reg a + if s.lanes.es.isSome then 16 else 0)
  else if LANE.ORDER 0 ≤ a ∧ a < LANE.ORDER 4 then
    let o := s.orderOf ((a - LANE.ORDER 0) / 4)
    some ((if o.known then 2 ^ 31 else 0) + (if o.txRev then 2 else 0) + if o.rxRev then 1 else 0)
  else match laneRegOf a with
    | some (_, 0x10) => some (s.tapsNow a)
    | some (n, 8) => some (s.lstat n)
    | some (n, 0x14) =>
      let l := s.laneOf n
      let blind := l.tstate == 1 && !l.detect && (s.pairOf (s.rxPhys n)).cdr
      some ((if (l.tstate == 3 || l.tstate == 6 || blind) && !l.frozen then 256 else 0) + l.eq.getD 0 0 % 16)
    | _ => none

end Sys2Proof.Machine
end

