-- ==== Sys2Proof/Machine/PowerOps.lean ====
section
/-! DEFINITION. Changes of the power state (R607 to R613). -/

namespace Sys2Proof.Machine

/-- Power states (R607). -/
def pwWRITE : Nat := 0
def pwREADY : Nat := 1
def pwDOZE : Nat := 2
def pwNAP : Nat := 3
def pwOFF : Nat := 4

/-- LAST_WAKE of a wake that R608 forces (R631). -/
def wakeJOB : Nat := 3

/-- R608: what keeps Riluz in WRITE. -/
def State.mustWrite (s : State) : Bool :=
  (s.slots.any fun x => x.st == .staged || x.st == .leading || x.st == .writing || x.st == .draining) || bit (s.reg LEDGER.REPLAY_CTRL) 31

/-- Lanes that NAP powers down (R612): outside NAP_KEEP, and UP or SPARE, or ACTIVE or SPARE on a peer side. -/
def State.napLanes (s : State) : List Nat :=
  (List.range 24).filter fun n => !bit (s.reg PWR.NAP_KEEP) n && ((s.laneOf n).link == 3 || (s.laneOf n).link == 4)

/-- R612: entry to NAP powers lanes down without losing them. Lane 24 is no lane of a link state; its PCS keeps LINK.STATE DOWN. -/
def State.napEnter (s : State) : State :=
  let s : State := { s with power := { s.power with napSince := s.time.epoch * 2 ^ 32 + s.time.ns } }
  let s := s.napLanes.foldl (fun s n =>
    let s : State := { s with power := { s.power with napped := s.power.napped ++ [(n, (s.laneOf n).link)] } }
    (s.setLane n fun l => { eq := l.eq }).setPair (s.rxPhys n) fun _ => {}) s
  -- a group whose lanes are all OFF has no order any more (R376)
  let s := s.power.napped.foldl (fun s l => s.forgetOrder l.1) s
  -- a side that has no ACTIVE lane goes DOWN (R396), without a record (R612)
  let s := [0, 1].foldl (fun s d => if (s.sideLanes d pACTIVE).isEmpty then s.sideDark d else s) s
  if bit (s.reg PWR.NAP_KEEP) 24 || (s.laneOf 24).tstate != 6 then s
  else
    let s : State := { s with power := { s.power with napped := s.power.napped ++ [(24, 0)] } }
    (s.setLane 24 fun _ => {}).ethLinkTo 0

/-- R612: once NAP has ended, the lanes that its entry powered down begin their bring-up. -/
def State.napResume (s : State) : State :=
  if s.power.st = pwNAP then s
  else s.power.napped.foldl (fun s l => if s.laneMayStart l.1 then s.laneBegin l.1 else s) { s with power := { s.power with napped := [] } }

/-- SR_LATENCY (R503), in us. -/
def srLatency : Nat := 12

/-- HBM in the state that a power state gives it (R502 to R504, R607). Entry to self-refresh drains the queued writes; NAP starts none where
the latency tolerance that host software wrote is below SR_LATENCY, and HBM stays in power-down. -/
def State.hbmPower (s : State) (st : Nat) : State :=
  if s.hbm.rateBusy then s
  else if st = pwDOZE || (st == pwNAP && decide (bits (s.reg PWR.LTR) 20 0 < srLatency)) then { s with hbm := { s.hbm with low := 1 } }
  else if st = pwNAP then { s with hbm := { s.hbm with low := 2, writes := [] } }
  else s.hbmActive

/-- A change of the power state, with its STATE record, counter and interrupt (R607, R612, R631). -/
def State.powerTo (s : State) (st : Nat) : State :=
  let old := s.power.st
  if old = st then s
  else
    let s := (if old = pwNAP then s.napMs else s).hbmPower st
    let s : State := { s with power := { s.power with st := st } }
    (if st = pwNAP then s.napEnter else s.napResume).powerMoved old

/-- R608: entry into WRITE the moment something keeps Riluz there, and READY once nothing does. In OFF nothing changes. -/
def State.powerSync (s : State) : State :=
  if s.power.st = pwOFF then s
  else if s.mustWrite then
    if s.power.st = pwWRITE then s
    else ({ s with power := { s.power with lastWake := wakeJOB } } : State).powerTo pwWRITE
  else if s.power.st = pwWRITE then s.powerTo pwREADY
  else s

/-- R611: a wake event to its end: the exit from DOZE or NAP, and the lanes' bring-up. -/
def State.wakes (s : State) (cause : Nat) : State := (s.wakeEvent cause).napResume

end Sys2Proof.Machine
end

