-- ==== Sys2Proof/Machine/Qlc.lean ====
section
/-! DEFINITION. Quegolon letter coding: the decoder's procedure (R84 to R94) and the compressor's (R101 to R107). -/

namespace Sys2Proof.Machine

/-! ### Decoding (R93) -/

/-- A decode as it stands: the output so far, latest byte first, and its length; or the first fault with its payload offset. -/
inductive QRun where
  | run (rev : List Byte) (w : Nat)
  | fault (code off : Nat) (rev : List Byte)
  deriving DecidableEq, Repr

/-- R91: `n` bytes copied from distance `d`, one at a time in output order. -/
def copyBack : Nat → Nat → List Byte → List Byte
  | 0, _, rev => rev
  | n + 1, d, rev => copyBack n d (rev.getD (d - 1) 0 :: rev)

/-- The count code of an opcode and its extension: the count, and the bytes after it (R89, R90); none where the body ends early. -/
def qCount (op : Byte) (rest : List Byte) : Option (Nat × List Byte) :=
  let c := op.toNat % 64
  let base := if op.toNat / 64 = 1 then 4 else 1
  if c < 63 then some (base + c, rest)
  else if rest.length < 2 then none
  else some (base + fld rest 0 2, rest.drop 2)

/-- One token (R89 to R93): `t` is its payload offset, `wb` the output length at the end of its block, `rest` the body after its opcode.
The answer is the run and the bytes of the body after the token. -/
def qToken (stride wb t : Nat) (op : Byte) (rest : List Byte) (rev : List Byte) (w : Nat) : QRun × List Byte :=
  match qCount op rest with
  | none => (.fault E.BAD_CODE t rev, [])
  | some (n, body) =>
    let kind := op.toNat / 64
    let past : Bool := decide (wb - w < n)
    if kind = 0 then
      if body.length < n then (.fault E.BAD_CODE t rev, [])
      else if past then (.fault E.LENGTH_OVERRUN t rev, [])
      else (.run ((body.take n).reverse ++ rev) (w + n), body.drop n)
    else if kind = 3 then
      match body with
      | [] => (.fault E.BAD_CODE t rev, [])
      | v :: body => if past then (.fault E.LENGTH_OVERRUN t rev, []) else (.run (List.replicate n v ++ rev) (w + n), body)
    else if kind = 1 then
      let f := fld body 0 3
      if body.length < 3 || decide (0xFFFFF < f) then (.fault E.BAD_CODE t rev, [])
      else if past then (.fault E.LENGTH_OVERRUN t rev, [])
      else if w < f + 1 then (.fault E.FAR_DISTANCE t rev, [])
      else (.run (copyBack n (f + 1) rev) (w + n), body.drop 3)
    else if stride = 0 then (.fault E.BAD_CODE t rev, [])
    else if past then (.fault E.LENGTH_OVERRUN t rev, [])
    else if w < stride then (.fault E.FAR_DISTANCE t rev, [])
    else (.run (copyBack n stride rev) (w + n), body)

/-- The tokens of a block's body (R93): `p` is the offset of the block header, `e` that of the body's end; `fuel` bounds the tokens. -/
def qTokens : Nat → Nat → Nat → Nat → Nat → List Byte → List Byte → Nat → QRun
  | 0, _, _, _, _, _, rev, w => .run rev w
  | _ + 1, _, wb, p, _, [], rev, w => if w = wb then .run rev w else .fault E.BAD_CODE p rev
  | fuel + 1, stride, wb, p, e, op :: rest, rev, w =>
    match qToken stride wb (e - (rest.length + 1)) op rest rev w with
    | (.fault c o r, _) => .fault c o r
    | (.run rev w, body) => qTokens fuel stride wb p e body rev w

/-- What a block header holds (R85). -/
structure QHeader where
  raw : Bool
  last : Bool
  stride : Nat
  coded : Nat
  out : Nat
  deriving DecidableEq, Repr

/-- A block header of at least 12 bytes that meets R86, apart from LENGTH_OVERRUN; `left` are the payload bytes from it on. -/
def qHeader (left : List Byte) : Option QHeader :=
  let f := fld left 0 1
  let h : QHeader := { raw := bit f 0, last := bit f 1, stride := fld left 1 3, coded := fld left 4 4, out := fld left 8 4 }
  if left.length < 12 || decide (4 ≤ f) || decide (2 ^ 20 < h.stride) || h.out == 0 || decide (2 ^ 24 < h.out) ||
     decide (left.length - 12 < h.coded) || (h.raw && h.coded != h.out) then none
  else some h

/-- The blocks of a payload (R93): `first` is the stride that every block must declare, for a STAMP letter (R115). R93's own checks of a block header,
LENGTH_OVERRUN among them, come before the STRIDE check of R115 (DESIGN CHOICE, log 72: R659 gives no order between them). -/
def qBlocks : Nat → Nat → Option Nat → Nat → List Byte → List Byte → Nat → QRun
  | 0, _, _, _, _, rev, w => .run rev w
  | fuel + 1, rawLen, first, p, left, rev, w =>
    match qHeader left with
    | none => .fault E.BAD_CODE p rev
    | some h =>
      if rawLen - w < h.out then .fault E.LENGTH_OVERRUN p rev
      else if (first.getD h.stride) != h.stride then .fault E.BAD_CODE p rev
      else
        let body := (left.drop 12).take h.coded
        let r := if h.raw then QRun.run (body.reverse ++ rev) (w + h.out)
                 else qTokens (h.coded + 1) h.stride (w + h.out) p (p + 12 + h.coded) body rev w
        match r with
        | .fault c o r => .fault c o r
        | .run rev w =>
          let p := p + 12 + h.coded
          let left := left.drop (12 + h.coded)
          if h.last then
            if !left.isEmpty || w != rawLen then .fault E.BAD_CODE p rev else .run rev w
          else qBlocks fuel rawLen first p left rev w

/-- The end of a decode: its output, its code (NONE, ZERO or a fault) and the payload offset of a fault. -/
structure Decoded where
  out : List Byte
  code : Nat
  off : Nat := 0
  deriving DecidableEq, Repr

/-- decode() of R93; `stamp` adds the check of R115 on each block's STRIDE. -/
def decodePayload (payload : List Byte) (rawLen check : Nat) (qlc stamp : Bool) : Decoded :=
  let n := payload.length
  if rawLen = 0 then
    if n ≠ 0 then ⟨[], E.BAD_CODE, 0⟩ else if check ≠ 0 then ⟨[], E.CHECK_MISMATCH, 0⟩ else ⟨[], E.ZERO, 0⟩
  else
    let r :=
      if !qlc then
        (if rawLen < n then QRun.fault E.LENGTH_OVERRUN rawLen (payload.take rawLen).reverse
         else if n < rawLen then QRun.fault E.BAD_CODE n payload.reverse
         else QRun.run payload.reverse n)
      else qBlocks (n + 1) rawLen (if stamp then some (fld payload 1 3) else none) 0 payload [] 0
    match r with
    | .fault c o rev => ⟨rev.reverse, c, o⟩
    | .run rev _ => if crc32c rev.reverse = check then ⟨rev.reverse, E.NONE, 0⟩ else ⟨rev.reverse, E.CHECK_MISMATCH, n⟩

/-! ### Compressing (R102 to R105) -/

/-- A token of the compressor: kind of R89, count, distance and literal or run bytes. -/
structure Token where
  kind : Nat
  n : Nat
  dist : Nat := 0
  bytes : List Byte := []
  deriving DecidableEq, Repr

/-- Opcode and extension of a token (R89, R90). -/
def Token.head (k : Token) : List Byte :=
  let c := k.n - if k.kind = 1 then 4 else 1
  if c < 63 then leBytes 1 (k.kind * 64 + c) else leBytes 1 (k.kind * 64 + 63) ++ leBytes 2 c

/-- The bytes of a token (R89 to R91). -/
def Token.encode (k : Token) : List Byte :=
  k.head ++ (if k.kind = 1 then leBytes 3 (k.dist - 1) else k.bytes)

/-- The token that reproduces the source at position `s`, as the free choice `c` (kind, count, distance) of choose_token proposes it, where
it is one that R102 lets a compressor emit; else one literal byte. `left` are the source bytes that the block still has. -/
def validToken (done src : List Byte) (left stride : Nat) (kind n dist : Nat) : Token :=
  let one : Token := { kind := 0, n := 1, bytes := src.take 1 }
  let n := min n left
  if kind % 4 = 0 then (if 1 ≤ n ∧ n ≤ 63 then { kind := 0, n := n, bytes := src.take n } else one)
  else if kind % 4 = 3 then
    (if 1 ≤ n ∧ n ≤ 65536 ∧ src.take n = List.replicate n (src.headD 0) then { kind := 3, n := n, bytes := src.take 1 } else one)
  else
    let d := if kind % 4 = 1 then dist else stride
    let lo := if kind % 4 = 1 then 4 else 1
    let hi := if kind % 4 = 1 then 65539 else 65536
    if lo ≤ n ∧ n ≤ hi ∧ 1 ≤ d ∧ d ≤ 2 ^ 20 ∧ d ≤ done.length ∧ (copyBack n d done).take n = (src.take n).reverse then
      { kind := kind % 4, n := n, dist := d }
    else one

/-- choose_token (R102): fixed in silicon and not stated; a function of the source, the stride and the block size (log 3). -/
def chooseToken (block stride : Nat) (done src : List Byte) (left : Nat) : Token :=
  let c := Config.chooseToken block stride (done.reverse ++ src) done.length
  validToken done src left stride c.1 c.2.1 c.2.2

/-- The tokens of one block: none where the block would not shrink (R102), else the coded bytes; `room` is what the destination has left, and
`.fault` says OUTPUT_FULL. -/
def cTokens : Nat → Nat → Nat → List Byte → List Byte → Nat → Nat → Nat → List Byte → QRun × Bool
  | 0, _, _, _, _, _, _, _, acc => (.run acc 0, false)
  | fuel + 1, block, stride, done, src, left, bout, room, acc =>
    if left = 0 then (.run acc 0, false)
    else
      let k := chooseToken block stride done src left
      let bs := k.encode
      if bout ≤ acc.length + bs.length then (.run [] 0, true)
      else if room < 64 then (.fault E.OUTPUT_FULL 0 [], false)
      else cTokens fuel block stride ((src.take k.n).reverse ++ done) (src.drop k.n) (left - k.n) bout (room - bs.length) (acc ++ bs)

/-- compress() of R102 over the blocks of a source: the payload, or none for OUTPUT_FULL. -/
def cBlocks : Nat → Nat → Nat → Nat → List Byte → List Byte → List Byte → Option (List Byte)
  | 0, _, _, _, _, _, acc => some acc
  | fuel + 1, block, stride, dstLen, done, src, acc =>
    if src.isEmpty then some acc
    else
      let bout := min block src.length
      let o := acc.length
      if dstLen - o < 76 then none
      else
        let (r, raw) := cTokens (bout + 1) block stride done src bout bout (dstLen - o - 12) []
        match r with
        | .fault _ _ _ => none
        | .run coded _ =>
          if raw && decide (dstLen - o < 12 + bout) then none
          else
            let body := if raw then src.take bout else coded
            let h := leBytes 1 ((if raw then 1 else 0) + if src.length = bout then 2 else 0) ++ leBytes 3 stride ++ leBytes 4 body.length ++
                     leBytes 4 bout
            cBlocks fuel block stride dstLen ((src.take bout).reverse ++ done) (src.drop bout) (acc ++ h ++ body)

/-- Block size of a PARAM register (R111). -/
def cmpBlock (param : Nat) : Nat := 4096 * 2 ^ min 12 (bits param 31 28)

/-- The payload of a compressor job, or none for OUTPUT_FULL (R102, R103). -/
def compress (src : List Byte) (dstLen param : Nat) : Option (List Byte) :=
  cBlocks (src.length + 1) (cmpBlock param) (bits param 23 0) dstLen [] src []

end Sys2Proof.Machine
end

