-- ==== Sys2Proof/Machine/Scratch.lean ====
section
/-! DEFINITION. Scratch errors and bank retirement (R517 to R525), and the vault (R526 to R529). -/

namespace Sys2Proof.Machine

/-! ### Errors (R517) -/

/-- ECC_CORRECTED: a corrected read of a word, or the end of a bank's 1 ms interval (R517). -/
def State.eccEvent (s : State) : EccEvent → State
  | .read a => s.eccCorrected a.toNat
  | .intervalEnds bank => s.eccIntervalEnds bank

/-- ECC_CORRECTED (R517). -/
def execEccCorrected (ev : EccEvent) (s : State) : Host.Outcome State Fault Refusal := .next (settle s (s.eccEvent ev))

/-! ### Retirement (R519 to R524) -/

/-- The lowest-numbered free reserve (R520). -/
def Scratch.freeReserve (c : Scratch) : Option Nat := (List.range 68).find? fun p => c.state.getD p 0 == 1
/-- RESERVES_LEFT. -/
def Scratch.reservesLeft (c : Scratch) : Nat := (c.state.filter (· == 1)).length
/-- The logical bank that a physical bank serves. -/
def Scratch.serves (c : Scratch) (p : Nat) : Option Nat := (List.range 64).find? fun b => c.map.getD b 0 == p

/-- R524: no free reserve is left for a physical bank. -/
def State.noReserve (s : State) (p : Nat) : State :=
  if s.scr.noReserve.contains p then s
  else (({ s with scr := { s.scr with noReserve := s.scr.noReserve ++ [p] } } : State).error pSCR E.NO_RESERVE_BANK []).raise pSCR 4

/-- R519, R520: the retirement of the bank that serves a logical bank starts, waits for the running one, or finds no reserve. -/
def State.retire (s : State) (bank : Nat) : State :=
  match s.scr.retiring with
  | some x =>
    if x.bank == bank || s.scr.queue.contains bank then s
    else { s with scr := { s.scr with queue := s.scr.queue ++ [bank] } }
  | none =>
    let old := s.scr.map.getD bank 0
    match s.scr.freeReserve with
    | none => s.noReserve old
    | some r =>
      { s with scr := { s.scr with retiring := some { bank := bank, old := old, reserve := r }, copyPos := 0, state := s.scr.state.set r 2 } }

/-- RETIRE_CMD with ACT at 1 (R519); retirements do not start while CTRL.EN is 0 (R530). -/
def State.retireCmd (s : State) (bank : Nat) : State := if s.enabled pSCR then s.retire bank else s

/-- RETIRE_CMD (R519). -/
def execRetireCmd (bank : Fin 64) (s : State) : Host.Outcome State Fault Refusal := .next (settle s ((s.wakeEvent wakeREGISTER).retireCmd bank))

/-- R519: the CORR count of a physical bank has passed THRESHOLD. -/
def State.retireThreshold (s : State) (p : Nat) : State :=
  let cfg := s.reg SCR.RETIRE_CFG
  match s.scr.serves p with
  | none => s
  | some b => if s.enabled pSCR && bit cfg 31 && decide (max 1 (bits cfg 15 0) ≤ s.scr.corr.getD p 0) then s.retire b else s

/-- RETIRE_THRESHOLD (R519). -/
def execRetireThreshold (bank : Fin 68) (s : State) : Host.Outcome State Fault Refusal := .next (settle s (s.retireThreshold bank))

/-- The next retirement that waits starts, in the order of their causes (R519); none starts while CTRL.EN is 0 (R530). One that finds no
reserve does not start, and the next one is looked at (R524). -/
def State.retireNext (s : State) : State :=
  match s.scr.queue with
  | [] => s
  | q => if s.enabled pSCR && s.scr.retiring.isNone then q.foldl State.retire { s with scr := { s.scr with queue := [] } } else s

/-- R522: COPY finds a word of the old bank uncorrectable: it is recorded, and the reserve takes it with a double-bit check pattern. -/
def State.copyBad (s : State) (r : Retirement) (w : Nat) : State :=
  ((s.eccRecord mCOPY (scrAddr r.bank w)).markWord r.old w).markWord r.reserve w

/-- Words of the old bank that show a double-bit error, from word `k` on and below word `e`. -/
def State.badWords (s : State) (r : Retirement) (k e : Nat) : List Nat :=
  (s.scr.bad.filter fun q => q / 65536 == r.old && decide (k ≤ q % 65536) && decide (q % 65536 < e)).map fun q => q % 65536

/-- COPY copies the words of the old bank up to word `e` into the reserve (R520, R522). -/
def State.copyWords (s : State) (r : Retirement) (e : Nat) : State :=
  let k := s.scr.copyPos
  let s : State := { s with mem := memCopy s.mem (cellKey r.old (8 * k)) (cellKey r.reserve (8 * k)) (8 * (e - k)) }
  let s := (s.badWords r k e).foldl (fun s w => s.copyBad r w) s
  { s with scr := { s.scr with copyPos := e } }

/-- R522, R523: COPY copies what is left up to the last word; `bad` holds the scratch addresses of further words that it finds uncorrectable. -/
def State.retired (s : State) (bad : List Nat) : State :=
  match s.scr.retiring with
  | none => s
  | some r =>
    let s := (bad.map scrWord).foldl (fun s w => if s.scr.bad.contains (r.old * 65536 + w) then s
      else if s.scr.copyPos ≤ w then s.markWord r.old w else s.copyBad r w) s
    let s := s.copyWords r 65536
    let s : State := { s with scr := { s.scr with retiring := none, copyPos := 65536, map := s.scr.map.set r.bank r.reserve,
                                                  state := (s.scr.state.set r.reserve 0).set r.old 3 } }
    (((s.event pSCR V.RETIRED [.f 1 r.old, .f 1 r.reserve]).bump SCR.RETIREMENTS 1).raise pSCR 3).retireNext

/-- RETIRED (R523). -/
def execRetired (uncorrectable : List Nat) (s : State) : Host.Outcome State Fault Refusal := .next (settle s (s.retired uncorrectable))

/-- R525: scratch and vault are cleared at power-on and at each wake from OFF. -/
def State.clearScratch (s : State) : State :=
  { s with
    mem := s.mem.filter fun c => decide (c.1 < scratchBase)
    scr := { s.scr with map := List.range 64, state := List.replicate 64 0 ++ List.replicate 4 1, retiring := none, copyPos := 0, queue := [],
                        bad := [], noReserve := [], clearing := false }
    vault := { s.vault with mem := [], bad := [], valid := 0 } }

/-! ### The vault (R526 to R529) -/

/-- R528: a window access at vault byte `a` is allowed. Only the host secrets depend on the life-cycle state: BLANK 0, DEVELOP 1, FIELD 2,
RETURNED 3, SCRAPPED 4 (R622); the window refuses every access during a wipe and while EN is 0 (R529, R531). -/
def State.vaultAllows (s : State) (a : Nat) (write : Bool) : Bool :=
  s.enabled pVAULT && s.vault.wiping.isNone &&
  (decide (a < 0x400) || (if s.life.st = 2 then write else s.life.st != 4))

/-- R528: a refused access is counted, and recorded once for an unbroken run. -/
def State.vaultRefuse (s : State) : State :=
  let s := s.bump VAULT.REFUSED 1
  if s.vault.lockedRun then s
  else (({ s with vault := { s.vault with lockedRun := true } } : State).error pVAULT E.VAULT_LOCKED []).raise pVAULT 3

/-- ADDR of WIN_ADDR moves on by 4 after an access with INC at 1 (R531). -/
def State.vaultStep (s : State) : State :=
  let w := s.reg VAULT.WIN_ADDR
  if bit w 31 then s.setReg VAULT.WIN_ADDR (putField w 17 2 (bits w 17 2 + 1)) else s

/-- A read of a word of the vault finds it uncorrectable: it was so before, or is so now (R518, R526). -/
def State.vaultBad (s : State) (a : Nat) (now : Bool) : Bool := now || s.vault.bad.contains (a / 8)

/-- An allowed window read (R526): of an uncorrectable word the spec does not say what it returns (log 3). -/
def State.vaultRead (s : State) (a : Nat) (uncorrectable : Bool) : Nat × State :=
  if a < 0x400 then (0, s)
  else if s.vaultBad a uncorrectable then (s.keyUncorrectable (a / 8)).fresh
  else (leNat (memRead s.vault.mem a 4), s)
/-- An allowed window write (R526): a part of a word, so an uncorrectable word drops it (R512, R518). -/
def State.vaultWrite (s : State) (a v : Nat) (uncorrectable : Bool) : State :=
  if a < 0x20 ∨ 0x400 ≤ a then
    if s.vaultBad a uncorrectable then s.keyUncorrectable (a / 8)
    else { s with vault := { s.vault with mem := memWrite s.vault.mem a (leBytes 4 v) } }
  else s

/-- R526, R528: an access of WIN_DATA, with whether its read finds a double-bit error. -/
def State.vaultAccess (s : State) (write : Option Word) (uncorrectable : Bool) : State :=
  let a := 4 * bits (s.reg VAULT.WIN_ADDR) 17 2
  let s :=
    if s.vaultAllows a write.isSome then
      let s : State := { s with vault := { s.vault with lockedRun := false } }
      match write with
      | some v => s.vaultWrite a v.toNat uncorrectable
      | none =>
        let (v, s) := s.vaultRead a uncorrectable
        { s with host := { s.host with data := leBytes 4 v, ep := false } }
    else
      let s := s.vaultRefuse
      match write with
      | some _ => s
      | none => { s with host := { s.host with data := leBytes 4 0, ep := false } }
  s.vaultStep

/-- VAULT_WINDOW_ACCESS (R528). -/
def execVaultWindowAccess (write : Option Word) (uncorrectable : Bool) (s : State) : Host.Outcome State Fault Refusal :=
  .next (settle s ((s.wakeEvent wakeREGISTER).vaultAccess write uncorrectable))

/-- Vault address of a key slot (R526). -/
def keyAddr (slot : Nat) : Nat := 0x100 + 32 * slot

/-- R528: LOAD and ERASE are refused in SCRAPPED. -/
def State.keyOpAllowed (s : State) : Bool := s.life.st != 4

/-- Words of the vault with a double-bit error after a key slot is written: whole words take fresh check bits, and a copy of an uncorrectable
word of the stage stays uncorrectable (log 76). -/
def badAfterKey (bad : List Nat) (slot : Nat) (load : Bool) : List Nat :=
  let w := keyAddr slot / 8
  let rest := bad.filter fun x => !(decide (w ≤ x) && decide (x < w + 4)) && !(load && decide (x < 4))
  if load then ((bad.filter fun x => decide (x < 4)).map (w + ·)).foldr (insertBy id) rest else rest

/-- KEY_CTRL LOAD (R527). -/
def State.keyLoad (s : State) (slot : Nat) : State :=
  if s.keyOpAllowed then
    let v := s.vault
    { s with vault := { v with mem := memZero (memWrite v.mem (keyAddr slot) (memRead v.mem 0 32)) 0 32, valid := v.valid ||| 2 ^ slot,
                               bad := badAfterKey v.bad slot true, lockedRun := false } }
  else s.vaultRefuse

/-- KEY_CTRL ERASE (R527). -/
def State.keySlotErase (s : State) (slot : Nat) : State :=
  if s.keyOpAllowed then
    let v := s.vault
    { s with vault := { v with mem := memZero v.mem (keyAddr slot) 32, valid := putBit v.valid slot false, bad := badAfterKey v.bad slot false,
                               lockedRun := false } }
  else s.vaultRefuse

/-- KEY_LOAD (R527). -/
def execKeyLoad (slot : Fin 16) (s : State) : Host.Outcome State Fault Refusal := .next (settle s ((s.wakeEvent wakeREGISTER).keyLoad slot))
/-- KEY_ERASE (R527). -/
def execKeyErase (slot : Fin 16) (s : State) : Host.Outcome State Fault Refusal := .next (settle s ((s.wakeEvent wakeREGISTER).keySlotErase slot))

/-- R529: a cause of a wipe: 1 TAMPER, 2 LIFE, 3 HOST; during a wipe it starts the wipe again. -/
def State.wipe (s : State) (cause : Nat) : State := { s with vault := { s.vault with wiping := some cause } }

/-- WIPE_CMD (R529). -/
def execWipeCmd (s : State) : Host.Outcome State Fault Refusal := .next (settle s ((s.wakeEvent wakeREGISTER).wipe 3))

/-- R529: a wipe ends. -/
def State.wiped (s : State) : State :=
  match s.vault.wiping with
  | none => s
  | some c =>
    let s : State := { s with vault := { s.vault with mem := [], bad := [], valid := 0, wiping := none, wiped := 2 ^ 30 + c } }
    ((s.bump VAULT.WIPES 1).event pVAULT V.WIPED [.f 1 c]).raise pVAULT 2

/-- WIPED (R529). -/
def execWiped (s : State) : Host.Outcome State Fault Refusal := .next (settle s s.wiped)

/-- R60, R527: the key of a slot, where it holds one and no wipe runs. -/
def State.keyOf (s : State) (slot : Nat) : Option (List Byte) :=
  if s.vault.wiping.isNone && bit s.vault.valid slot then some (memRead s.vault.mem (keyAddr slot) 32) else none

/-- Words of a key slot that the read of a key finds uncorrectable: those reported, and those that show it already (R527). -/
def State.keyFaults (s : State) (slot : Nat) (mem : MemRep) : List Nat :=
  (mem.faults.filterMap fun f => match f with
    | .keyUncorrectable w => if keyAddr slot / 8 ≤ w ∧ w < keyAddr slot / 8 + 4 then some w else none
    | _ => none) ++
  s.vault.bad.filter fun w => decide (keyAddr slot / 8 ≤ w) && decide (w < keyAddr slot / 8 + 4) &&
    !mem.faults.contains (.keyUncorrectable w)

/-! ### Registers (R530, R531) -/

/-- A write of a VAULT register, after the store of its bits. -/
def State.writeVault (s : State) (a v : Nat) : State :=
  if a = VAULT.WIN_DATA then s.vaultAccess (some (BitVec.ofNat 32 v)) false
  else if a = VAULT.KEY_CTRL then
    (if bit v 8 then (if bits v 17 16 = 0 then s.keyLoad (bits v 3 0) else if bits v 17 16 = 1 then s.keySlotErase (bits v 3 0) else s) else s)
  else if a = VAULT.WIPE_CMD then (if bit v 8 then s.wipe 3 else s)
  else s

/-- A write of an SCR register, after the store of its bits. -/
def State.writeScr (s : State) (a v : Nat) : State :=
  if a = SCR.RETIRE_CMD then (if bit v 8 then s.retireCmd (bits v 5 0) else s)
  else if a = CTRL pSCR then s.retireNext
  else s

/-- WIPE_STATUS (R531). -/
def State.wipeStatus (s : State) : Nat :=
  match s.vault.wiping with
  | none => s.vault.wiped
  | some c => 2 ^ 31 + (s.vault.wiped / 2 ^ 30) * 2 ^ 30 + c

/-- What a read of a derived VAULT register returns. -/
def State.readVault (s : State) (a : Nat) : Option Nat :=
  if a = VAULT.KEY_VALID then some s.vault.valid
  else if a = VAULT.WIPE_STATUS then some s.wipeStatus
  else if a = STATUS pVAULT then some (s.reg a + if s.vault.wiping.isSome then 16 else 0)
  else none

/-- COPY goes on for two fabric clocks: it copies one word in each of them that port B of both banks grants it, and what the ports grant no
command brings (R520, log 3). The last word is copied by RETIRED. -/
def State.copyStep (s : State) : State :=
  match s.scr.retiring with
  | none => s
  | some r =>
    let (k, s) := s.fresh
    s.copyWords r (min 65535 (s.scr.copyPos + k % 3))

/-- What a read of a derived SCR register returns. -/
def State.readScr (s : State) (a : Nat) : Option Nat :=
  if a = SCR.RETIRE_STATUS then
    some (s.scr.reservesLeft * 256 + match s.scr.retiring with
      | none => 0
      | some r => 2 ^ 31 + r.bank * 2 ^ 16)
  else if a = SCR.COPY_POS then some s.scr.copyPos
  else if a = STATUS pSCR then some (s.reg a + (if s.scr.retiring.isSome then 16 else 0) + if s.scr.clearing then 32 else 0)
  else if SCR.MAP 0 ≤ a ∧ a < SCR.MAP 64 then some (s.scr.map.getD ((a - SCR.MAP 0) / 4) 0)
  else if SCR.BANK_INFO 0 ≤ a ∧ a < SCR.BANK_INFO 68 then
    some (s.scr.state.getD ((a - SCR.BANK_INFO 0) / 4) 0 * 2 ^ 30 + s.scr.corr.getD ((a - SCR.BANK_INFO 0) / 4) 0)
  else none

end Sys2Proof.Machine
end

