-- ==== Sys2Proof/Machine/Mail.lean ====
section
/-! DEFINITION. Letters, the mailbag's order, job slots and the giving of letters to decoders (R43 to R63, R82, R98, R117, R118, R158). -/

namespace Sys2Proof.Machine

/-! ### The letter header (R43, R44) -/

def letterKind (l : List Byte) : Nat := fld l 0 1
def letterFlags (l : List Byte) : Nat := fld l 2 2
def letterTarget (l : List Byte) : Nat := fld l 4 2
def letterMagic (l : List Byte) : Nat := fld l 6 2
def letterJob (l : List Byte) : Nat := fld l 8 4
def letterSeq (l : List Byte) : Nat := fld l 12 4
def letterLength (l : List Byte) : Nat := fld l 16 4
def letterRaw (l : List Byte) : Nat := fld l 20 4
def letterCheck (l : List Byte) : Nat := fld l 24 4
def letterAux (l : List Byte) : Nat := fld l 28 4
/-- FLAGS.QLC and FLAGS.AUTH. -/
def letterQlc (l : List Byte) : Bool := bit (letterFlags l) 0
def letterAuth (l : List Byte) : Bool := bit (letterFlags l) 1
/-- The payload as carried. -/
def letterPayload (l : List Byte) : List Byte := (l.drop 32).take (letterLength l)
/-- Bytes of a letter with its tag, without its pad (R44). -/
def letterBytes (l : List Byte) : Nat := 32 + letterLength l + if letterAuth l then 16 else 0

/-- Letter kinds (R50). -/
def kJOB_OPEN : Nat := 1
def kSTAMP : Nat := 2
def kPOSTING_TABLE : Nat := 3
def kDIRECT : Nat := 4
def kENCLOSURE : Nat := 5
def kFRANK_DEF : Nat := 6
def kGLYPH_SET : Nat := 7
def kJOB_CLOSE : Nat := 8
def kFENCE : Nat := 9
def kCOUNTERSIGN_BATCH : Nat := 10

/-! ### Slots (R56, R63) -/

/-- Slot `n`. -/
def State.slotOf (s : State) (n : Nat) : Slot := s.slots.getD n {}
/-- Slot `n` changed. -/
def State.setSlot (s : State) (n : Nat) (f : Slot → Slot) : State := { s with slots := modAt s.slots n f }
/-- A slot changes state (R63), with the interrupt of R82 and the power state that follows (R608). -/
def State.slotTo (s : State) (n : Nat) (st : SlotState) : State :=
  if (s.slotOf n).st = st then s else ((s.setSlot n fun x => { x with st := st }).raise pMAIL 2).powerSync
/-- The slot is occupied. -/
def Slot.occupied (x : Slot) : Bool := x.st != .empty
/-- The occupied slot of a job. -/
def State.slotOfJob (s : State) (job : Nat) : Option Nat :=
  (List.range 4).find? fun n => (s.slotOf n).occupied && (s.slotOf n).job == job

/-- Decoder `d`. -/
def State.decOf (s : State) (d : Nat) : Option DecJob := (s.mail.decs.getD d none)
/-- Decoder `d` takes a letter or becomes free. -/
def State.setDec (s : State) (d : Nat) (j : Option DecJob) : State := { s with mail := { s.mail with decs := s.mail.decs.set d j } }

/-- R65, R99: the letters of a slot in the mailbag and the decoders are discarded. -/
def State.dropLetters (s : State) (n : Nat) : State :=
  let s := s.setSlot n fun x => { x with held := [], gap := false, released := [] }
  { s with mail := { s.mail with decs := s.mail.decs.map fun d => if (d.map (·.slot)) = some n then none else d } }

/-! ### Arrival (R46 to R62) -/

/-- R83: a letter is dropped with an error, whose counter and interrupt R82 gives. -/
def State.mailDrop (s : State) (code : Nat) (l : List Byte) : State :=
  let s := s.error pMAIL code [.f 4 (letterJob l), .f 4 (letterSeq l)]
  if code = E.DUPLICATE then s.bump MAIL.DUPLICATES 1
  else if code = E.AUTH_FAIL then s.bump MAIL.AUTH_FAILS 1
  else if code = E.SEQ_GAP then (s.bump MAIL.GAPS 1).raise pMAIL 3
  else s

/-- R46: a bad MAGIC halts its letter ring. HALT_RING shows the ring that halted last, also after RESUME (R82; DESIGN CHOICE, log 72: the spec
does not say which of several it shows, nor what it shows after RESUME). -/
def State.ringHalted (s : State) (ring : Nat) (l : List Byte) : State :=
  let s : State := { s with mail := { s.mail with halted := s.mail.halted ++ [ring], haltRing := ring } }
  (s.mailDrop E.BAD_KIND l).raise pMAIL 4

/-- The initialisation vector of R59. -/
def letterIv (l : List Byte) : List Byte :=
  leBytes 4 (letterJob l) ++ leBytes 4 (letterSeq l) ++ leBytes 2 (letterTarget l) ++ leBytes 1 (letterKind l) ++ [0]

/-- What the memories report of the arrival of a letter for this device: of a key, what the tag check of the letter finds of its slot (R527). -/
def State.keyMeets (s : State) (l : List Byte) (mem : MemRep) : MemRep :=
  let slot := bits (letterFlags l) 7 4
  { mem with faults := (mem.faults.filter fun f => match f with
        | .keyUncorrectable _ => false
        | _ => true) ++
      if letterAuth l && (s.keyOf slot).isSome then (s.keyFaults slot mem).map MemFault.keyUncorrectable else [] }

/-- The tag check could not read its key (R527). -/
def keyFailed (mem : MemRep) : Bool := mem.faults.any fun f => match f with
  | .keyUncorrectable _ => true
  | _ => false

/-- R59 to R61: the letter may be sorted against E; `failed` says that its key could not be read (R527). -/
def State.authOk (s : State) (l : List Byte) (failed : Bool) : Bool :=
  if letterAuth l then
    match s.keyOf (bits (letterFlags l) 7 4) with
    | none => false
    | some k => !failed && gmac k (letterIv l) (l.take (32 + letterLength l)) == (l.drop (32 + letterLength l)).take 16
  else !bit (s.reg (CTRL pMAIL)) 1

/-- The slot that a letter of a job goes to, by R56 and R58, or the error that drops the letter. -/
def State.claim (s : State) (job : Nat) : Option Nat × Nat :=
  match s.slotOfJob job with
  | some n => (some n, 0)
  | none =>
    if (s.mail.highest.map fun h => precedes h job) = some false then (none, E.DUPLICATE)
    else match (List.range 4).find? fun n => !(s.slotOf n).occupied with
      | some n => (some n, 0)
      | none => (none, E.TOO_MANY_JOBS)

/-- A free slot is given to a job (R56, R63); freed entries of its cell table show their final state until they are reused (R284). -/
def State.giveSlot (s : State) (n job : Nat) : State :=
  if (s.slotOf n).occupied then s
  else
    let s := s.setSlot n fun x => { job := job, cells := x.cells }
    ({ s with mail := { s.mail with highest := some job } } : State).slotTo n .gathering

/-- R51: the slot's JOB_OPEN has not been applied and E is 0. -/
def Slot.firstPlace (x : Slot) : Bool := x.st == .gathering && x.nextSeq == 0

/-- A letter at SEQ = E is applied, or dropped by its kind; the answer says whether it consumed its number (R50, R51, R54). -/
def State.applyLetter (s : State) (n : Nat) (l : List Byte) : State × Bool :=
  let x := s.slotOf n
  let k := letterKind l
  if x.firstPlace && k != kJOB_OPEN then (s.mailDrop E.BAD_KIND l, false)
  else
    let s := s.setSlot n fun x => { x with nextSeq := (x.nextSeq + 1) % 2 ^ 32 }
    if k = 0 || decide (10 < k) || (k == kJOB_OPEN && !x.firstPlace) then (s.mailDrop E.BAD_KIND l, true)
    else ((s.setSlot n fun x => { x with released := x.released ++ [(x.nextOrd, l)], nextOrd := x.nextOrd + 1 }).bump MAIL.LETTERS 1, true)

/-- R54: held letters from the new E onward are applied; `fuel` bounds them. -/
def State.applyHeld : Nat → State → Nat → State
  | 0, s, _ => s
  | fuel + 1, s, n =>
    match (s.slotOf n).held.find? fun l => letterSeq l == (s.slotOf n).nextSeq with
    | none => s
    | some l =>
      let r := (s.setSlot n fun x => { x with held := x.held.erase l }).applyLetter n l
      if r.2 then State.applyHeld fuel r.1 n else r.1

/-- The held letter that follows E first. -/
def Slot.nextHeld (x : Slot) : Option (List Byte) :=
  x.held.foldl (fun b l => match b with
    | none => some l
    | some m => if (letterSeq l + 2 ^ 32 - x.nextSeq) % 2 ^ 32 < (letterSeq m + 2 ^ 32 - x.nextSeq) % 2 ^ 32 then some l else b) none

/-- R55: after the letter at E was applied the gap closes; letters held further ahead open a new one, whose SEQ_GAP record carries the JOB and
SEQ of the nearest held letter (R83; DESIGN CHOICE, log 72: the spec does not say which letter's it carries). -/
def State.gapAfter (s : State) (n : Nat) : State :=
  if (s.slotOf n).gap then
    match (s.slotOf n).nextHeld with
    | none => s.setSlot n fun x => { x with gap := false }
    | some l => s.mailDrop E.SEQ_GAP l
  else s

/-- REORDER_MAX in bytes: values above 1,024 MiB act as 1,024 (R82). -/
def State.reorderMax (s : State) : Nat := min 1024 (bits (s.reg MAIL.REORDER_MAX) 10 0) * 2 ^ 20

/-- The cases of R54 for a letter of slot `n`. -/
def State.sortLetter (s : State) (n : Nat) (l : List Byte) : State :=
  let x := s.slotOf n
  let d := (letterSeq l + 2 ^ 32 - x.nextSeq) % 2 ^ 32
  if d = 0 then
    let r := s.applyLetter n l
    if r.2 then (State.applyHeld x.held.length r.1 n).gapAfter n else r.1
  else if 2 ^ 31 ≤ d then s.mailDrop E.DUPLICATE l
  else if x.held.any fun m => letterSeq m == letterSeq l then s.mailDrop E.DUPLICATE l
  else if s.reorderMax < sumNat (x.held.map letterBytes) + letterBytes l then s.mailDrop E.SEQ_GAP l
  else
    let s := s.setSlot n fun x => { x with held := x.held ++ [l], gap := true }
    if x.gap then s else s.mailDrop E.SEQ_GAP l

/-- A whole letter for this device is authenticated and sorted (R54 to R61). -/
def State.ownLetter (s : State) (l : List Byte) (failed : Bool) : State :=
  if !s.authOk l failed then s.mailDrop E.AUTH_FAIL l
  else match s.claim (letterJob l) with
    | (none, code) => s.mailDrop code l
    | (some n, _) => (s.giveSlot n (letterJob l)).sortLetter n l

/-- A whole letter arrives (R47, R54). -/
def State.letterIn (s : State) (l : List Byte) (failed : Bool) : State :=
  if 1023 < letterTarget l then s.mailDrop E.BAD_KIND l
  else if letterTarget l ≠ s.deviceNo then s.forwardLetter (letterTarget l) (l.take (letterBytes l))
  else s.ownLetter l failed

/-- Kinds whose decoded output does not lie in the mailbag region (R484): STAMP, DIRECT, ENCLOSURE and GLYPH_SET. -/
def outsideMailbag (k : Nat) : Bool := k == kSTAMP || k == kDIRECT || k == kENCLOSURE || k == kGLYPH_SET

/-- Bytes of the mailbag region in use: letters from their arrival until they are applied, and decoded output (R484). -/
def State.mailUsed (s : State) : Nat :=
  sumNat (s.slots.map fun x => sumNat (x.held.map letterBytes) + sumNat (x.released.map fun p => letterBytes p.2)) +
  sumNat (s.mail.decs.map fun d => match d with
    | some j => letterBytes j.bytes + if outsideMailbag (letterKind j.bytes) then 0 else j.out.length
    | none => 0)

/-- Device address and bytes of the mailbag region (R483, R508). -/
def State.mailBase (s : State) : Nat := s.active64 HBM.MAILBAG_LO HBM.MAILBAG_HI
def State.mailSize (s : State) : Nat := bits (s.active HBM.MAILBAG_SIZE) 14 0 * 2 ^ 20

/-- An entry of the mailbag region is of a letter that the mailbag or a decoder still has (R484). -/
def State.bagLive (s : State) (e : BagEntry) : Bool :=
  let x := s.slotOf e.slot
  (!e.out && (x.held.any (letterSeq · == e.seq) || x.released.any (letterSeq ·.2 == e.seq))) ||
  s.mail.decs.any fun d => match d with
    | some j => j.slot == e.slot && letterSeq j.bytes == e.seq
    | none => false

/-- The entries that hold the region now, and the entry of a letter or of its output. -/
def State.bag (s : State) : List BagEntry := s.mail.bag.filter s.bagLive
def State.bagEntry (s : State) (slot seq : Nat) (out : Bool) : Option BagEntry :=
  s.bag.find? fun e => e.slot == slot && e.seq == seq && e.out == out

/-- The region keeps nothing of letters that it no longer holds: a letter that arrives may have the slot and SEQ of an earlier one. -/
def State.bagSwept (s : State) : State := { s with mail := { s.mail with bag := s.bag } }

/-- Where the next bytes of the mailbag region go, and the regions of an entry. -/
def State.bagPlace (s : State) (n : Nat) : List (Nat × Nat) := findPlace s.mailSize (s.bag.flatMap (·.place)) n
def State.bagRegions (s : State) (e : Option BagEntry) : List (Nat × Nat) := placeRegions s.mailBase ((e.map (·.place)).getD [])

/-- Bytes of a letter or of its output are written into the mailbag region (R484, R487). -/
def State.bagStore (s : State) (slot seq : Nat) (out : Bool) (fs : List MemFault) (bs : List Byte) : State :=
  let p := s.bagPlace bs.length
  let e : BagEntry := { slot := slot, seq := seq, out := out, place := p, bad := fs.any isPoison }
  let rs := placeRegions s.mailBase p
  ((({ s with mail := { s.mail with bag := s.bag ++ [e] } } : State).touch rs).storeRegions mDMA [] rs bs).spoilWrites fs rs

/-- Bytes of an entry as they lie in the region now; bytes that found no room are those that were to be written. -/
def State.bagRead (s : State) (e : Option BagEntry) (bs : List Byte) : List Byte :=
  let rs := s.bagRegions e
  let got := s.loadRegions rs 0 bs.length
  got ++ bs.drop got.length

/-- A letter that the mailbag has kept lies in its region from now on (R484). -/
def State.bagPut (s : State) (l : List Byte) (fs : List MemFault) : State :=
  match s.slotOfJob (letterJob l) with
  | none => s
  | some n =>
    let x := s.slotOf n
    if (x.held.contains l || x.released.any (·.2 == l)) && (s.bagEntry n (letterSeq l) false).isNone then
      s.bagStore n (letterSeq l) false fs (l.take (letterBytes l))
    else s

/-- Free bytes of the mailbag region. -/
def State.mailFree (s : State) : Nat := s.mailSize - s.mailUsed

/-- A letter goes into the mailbag region of this device. -/
def State.ownMail (s : State) (l : List Byte) : Bool := letterMagic l == 0x4C51 && letterTarget l == s.deviceNo

/-- R484: a letter for this device finds room in the mailbag region; its ring waits until it does. -/
def State.mailRoom (s : State) (l : List Byte) : Bool := !s.ownMail l || decide (letterBytes l ≤ s.mailFree)

/-- Device memory that a letter's arrival reads and writes: its part of a forward buffer, and its place in the mailbag region. -/
def State.arrivalRegions (s : State) (from' : List (Nat × Nat)) (l : List Byte) : List (Nat × Nat) :=
  from' ++ if s.ownMail l then placeRegions s.mailBase (s.bagPlace (letterBytes l)) else []

/-- A letter of this device's host for another device is counted in PEER.FWD_LETTERS as it is forwarded toward a side that is UP (R47,
R396, R402). -/
def State.countForward (s : State) (l : List Byte) : State :=
  if letterTarget l ≤ 1023 ∧ letterTarget l ≠ s.deviceNo ∧ (s.routeSide (letterTarget l)).any (fun d => (s.sideOf d).up) then
    s.bump PEER.FWD_LETTERS 1
  else s

/-- The next whole letter of letter ring `n` arrives (R44, R46, R54, R484). -/
def State.ringArrival (s : State) (n : Nat) (mem : MemRep) : State :=
  match (s.streamOf n).letters with
  | [] => s
  | l :: rest =>
    if !s.mailRoom l then s.setStream n fun t => { t with full := true }
    else if !s.served (s.arrivalRegions [] l) then s
    else
      let s := s.setStream n fun t => { t with letters := rest, full := false }
      if letterMagic l = 0x4C51 then
        let mem := s.keyMeets l mem
        (((if s.ownMail l then s.memReport .mailbag mDMA mem else s).countForward l).bagSwept.letterIn l (keyFailed mem)).bagPut l mem.faults
      else s.ringHalted n l

/-- The next whole letter of the forward buffer of side `d` arrives (R405). -/
def State.sideArrival (s : State) (d : Nat) (mem : MemRep) : State :=
  match (s.sideOf d).letters with
  | [] => s
  | (o, total) :: rest =>
    let l := s.fwdRead d o total
    let rs := s.arrivalRegions (s.fwdRegions d o total) l
    if !s.mailRoom l || !s.served rs then s
    else
      let s := (s.setSide d fun x => { x with letters := rest, fwdLeft := (x.fwdLeft + total) % 2 ^ 32 }).touch (s.fwdRegions d o total)
      let mem := s.keyMeets l mem
      let s := s.memReport .mailbag mDMA mem
      if letterMagic l = 0x4C51 then (s.bagSwept.letterIn l (keyFailed mem)).bagPut l mem.faults else s.mailDrop E.BAD_KIND l

/-- LETTER_ARRIVAL: the next whole letter of a letter ring, or of a side's forward buffer (R44, R46, R405), where the mailbag region has room
for it (R484) and the memory serves requests (R500, R505). Letters wait while MAIL.CTRL.EN is 0. -/
def State.letterArrival (s : State) (src : LetterSrc) (mem : MemRep) : State :=
  if !s.enabled pMAIL then s
  else match src with
    | .ring n => s.ringArrival n mem
    | .side d => s.sideArrival d mem

/-- LETTER_ARRIVAL (R54). -/
def execLetterArrival (src : LetterSrc) (mem : MemRep) (s : State) : Host.Outcome State Fault Refusal :=
  .next (settle s (s.letterArrival src mem))

/-- R46: CTRL.RESUME; parsing restarts at the next descriptor that each halted ring takes, and what it has taken before is discarded. -/
def State.mailResume (s : State) : State :=
  let s := s.mail.halted.foldl (fun s n =>
    (s.setStream n fun t => { t with mute := false, part := [] }).setRing n fun r =>
      { r with restart := true, taken := r.taken.map fun d => { d with drop := true } }) s
  { s with mail := { s.mail with halted := [] } }

/-- MAIL_RESUME (R46). -/
def execMailResume (s : State) : Host.Outcome State Fault Refusal := .next (settle s (s.wakeEvent wakeREGISTER).mailResume)

/-! ### Album frames and glyph pages (R117, R158, R178) -/

/-- REGION_FRAMES. -/
def State.albumFrames (s : State) : Nat := min 16384 (bits (s.active ALBUM.REGION_FRAMES) 14 0)
/-- Album base device address. -/
def State.albumBase (s : State) : Nat := s.active64 ALBUM.REGION_LO ALBUM.REGION_HI % 2 ^ 36

/-- Frames that stamps, enclosures and letters in decoders hold. -/
def State.usedFrames (s : State) : List Nat :=
  s.slots.flatMap (fun x => x.stamps.flatMap (·.frames) ++ x.enclosures.flatMap (·.frames)) ++
  s.mail.decs.flatMap fun d => match d with
    | some j => if letterKind j.bytes = kGLYPH_SET then [] else j.frames
    | none => []
/-- Frames not allocated, lowest first: which of them a stamp or an enclosure takes, and in what order, is Riluz's own choice, and it takes the
lowest-numbered ones (DESIGN CHOICE, log 77: R117 and R178 do not say). -/
def State.freeFrames (s : State) : List Nat := let u := s.usedFrames; (List.range s.albumFrames).filter fun f => !u.contains f

/-- Pages of the glyph pool, those in use, and those free, lowest first: which of them a set takes is Riluz's own choice, and it takes the
lowest-numbered ones (DESIGN CHOICE, log 77: R158 does not say). -/
def State.glyphPages (s : State) : Nat := bits (s.active FRANK.GLYPH_SIZE) 12 0 / 4
def State.usedPages (s : State) : List Nat :=
  s.slots.flatMap (fun x => x.glyphs.flatMap (·.pages)) ++
  s.mail.decs.flatMap fun d => match d with
    | some j => if letterKind j.bytes = kGLYPH_SET then j.frames else []
    | none => []
def State.freePages (s : State) : List Nat := let u := s.usedPages; (List.range s.glyphPages).filter fun p => !u.contains p

/-- Pitch of R116, and the frames of R117. -/
def pitch (w : Nat) : Nat := 64 * ceilDiv w 64
def framesOf (w h : Nat) : Nat := ceilDiv (h * pitch w) (2 ^ 21)

/-- ALBUM_FULL (R117, R178): the letter is discarded, with no decoder fault. -/
def State.albumFull (s : State) (l : List Byte) : State :=
  ((s.error pALBUM E.ALBUM_FULL [.f 4 (letterJob l), .f 4 (letterSeq l)]).bump ALBUM.FULLS 1).raise pALBUM 2

/-! ### Decoders (R98, R118, R130) -/

/-- TILE.DIRECT_SIZE in bytes. -/
def State.directSize (s : State) : Nat := bits (s.active TILE.DIRECT_SIZE) 12 0 * 2 ^ 20
/-- Device address of the direct buffer. -/
def State.directBase (s : State) : Nat := s.active64 TILE.DIRECT_LO TILE.DIRECT_HI
/-- Parts of the direct buffer in use, those of letters in decoders included (R130). -/
def State.directPlaces (s : State) : List (Nat × Nat) :=
  s.slots.flatMap (fun x => x.directs.flatMap (·.place)) ++ s.mail.decs.flatMap fun d => match d with
    | some j => j.place
    | none => []
/-- Bytes of the direct buffer in use. -/
def State.directUsed (s : State) : Nat :=
  sumNat (s.directPlaces.map (·.2))

/-- R659: the fault that the letter header shows, by the kind's own rule; none is looked for in an empty payload (R94), but FRANK_DEF's AUX. -/
def State.headerFault (s : State) (l : List Byte) : Option DecFault :=
  let k := letterKind l
  let raw := letterRaw l
  let aux := letterAux l
  let badCode : Option DecFault := some { code := E.BAD_CODE, off := 0 }
  let overrun : Option DecFault := some { code := E.LENGTH_OVERRUN, off := 0 }
  if k = kFRANK_DEF then (if 255 < aux then badCode else none)
  else if raw = 0 then none
  else if k = kSTAMP then (if letterQlc l then none else badCode)
  else if k = kPOSTING_TABLE then (if raw = 24 * aux then none else badCode)
  else if k = kDIRECT then (if 7 < aux then badCode else if s.directSize < raw then overrun else none)
  else if k = kGLYPH_SET then (if 3 < aux then badCode else if s.freePages.length < ceilDiv raw 4096 then overrun else none)
  else if k = kCOUNTERSIGN_BATCH then (if raw = 16 * aux then none else badCode)
  else none

/-- The first block header of a STAMP letter, where it meets R86. -/
def stampHead (l : List Byte) : Option QHeader :=
  if letterRaw l = 0 || !letterQlc l then none
  else match qHeader (letterPayload l) with
    | none => none
    | some h => if letterRaw l < h.out then none else some h

/-- R115: the first block's STRIDE is a stamp's width. -/
def stampWidthOk (l : List Byte) (h : QHeader) : Bool := h.stride != 0 && decide (h.stride ≤ 65536) && letterRaw l % h.stride == 0

/-- A decoder makes what its letter defines: a STAMP that it expands or a GLYPH_SET, not one whose header, or whose first block header, has shown
a fault and none of an empty payload, which define nothing (R86, R94, R97). -/
def DecJob.makes (j : DecJob) (k : Nat) : Bool :=
  letterKind j.bytes == k && j.pre.isNone && letterRaw j.bytes != 0 && (k != kSTAMP || (stampHead j.bytes).isSome)

/-- A decoder makes what a letter of slot `n` of kind `k` with this AUX names. -/
def State.inDecoder (s : State) (n k aux : Nat) : Bool :=
  s.mail.decs.any fun d => match d with
    | some j => j.makes k && j.slot == n && letterAux j.bytes == aux
    | none => false

/-- R118, R158, R161: the mailbag drops a STAMP or GLYPH_SET letter that names what is defined or being made, and a FRANK_DEF letter that names a
field already defined. -/
def State.isDuplicate (s : State) (n : Nat) (l : List Byte) : Bool :=
  let k := letterKind l
  let aux := letterAux l
  (k == kSTAMP && ((s.slotOf n).stamps.any (·.num == aux) || s.inDecoder n k aux)) ||
  (k == kGLYPH_SET && ((s.slotOf n).glyphs.any (·.num == aux) || s.inDecoder n k aux)) ||
  (k == kFRANK_DEF && (s.slotOf n).fields.any (·.num == aux))

/-- R130: a DIRECT letter takes its room in the direct buffer, or waits for it. -/
def State.placeDirect (s : State) (j : DecJob) : DecJob :=
  let n := letterRaw j.bytes
  if s.directSize < s.directUsed + n then { j with waits := true }
  else { j with waits := false, place := findPlace s.directSize s.directPlaces n }

/-- Decoder `d` starts a letter of slot `n` (R98, R115, R117, R130, R158). -/
def State.startLetter (s : State) (d n ord : Nat) (l : List Byte) : State :=
  let k := letterKind l
  let j : DecJob := { slot := n, ord := ord, bytes := l, pre := s.headerFault l }
  if k = kSTAMP then
    match stampHead l with
    | none => s.setDec d (some j)
    | some h =>
      if !stampWidthOk l h then s.setDec d (some { j with pre := some { code := E.BAD_CODE, off := 0 } })
      else
        let need := framesOf h.stride (letterRaw l / h.stride)
        let free := s.freeFrames
        if 4095 < letterAux l || free.length < need then s.albumFull l
        else s.setDec d (some { j with frames := free.take need })
  else if k = kGLYPH_SET && j.pre.isNone then s.setDec d (some { j with frames := s.freePages.take (ceilDiv (letterRaw l) 4096) })
  else if k = kDIRECT && j.pre.isNone then s.setDec d (some (s.placeDirect j))
  else s.setDec d (some j)

/-- R98: the slot whose released letter goes next. Of two slots whose job numbers lie exactly 2^31 apart, where neither precedes the other
(R10), the lower-numbered slot goes first (DESIGN CHOICE, log 72). -/
def State.nextSlot (s : State) : Option Nat :=
  let ns := (List.range 4).filter fun n => !(s.slotOf n).released.isEmpty
  let now (n : Nat) : Bool := (s.slotOf n).st == .leading || (s.slotOf n).st == .writing
  let ahead (a b : Nat) : Bool :=
    if now a != now b then now a else precedes (s.slotOf a).job (s.slotOf b).job
  ns.foldl (fun b n => match b with
    | none => some n
    | some m => if ahead n m then some n else b) none

/-- The decoder that takes the next letter: the lowest-numbered one that is enabled and idle (R98, R110). -/
def State.idleDecoder (s : State) : Option Nat :=
  (List.range 8).find? fun d => bit (s.reg DEC.DEC_EN) d && (s.decOf d).isNone

/-- R98, R118: decoder `d` takes the next released letter; letters that the mailbag drops on the way go with DUPLICATE. -/
def State.takeLetter : Nat → State → Nat → State
  | 0, s, _ => s
  | fuel + 1, s, d =>
    match s.nextSlot with
    | none => s
    | some n =>
      match (s.slotOf n).released with
      | [] => s
      | (ord, l) :: rest =>
        let s := s.setSlot n fun x => { x with released := rest }
        if s.isDuplicate n l then State.takeLetter fuel (s.mailDrop E.DUPLICATE l) d else s.startLetter d n ord l

/-- DECODER_TAKE (R98). -/
def State.decoderTake (s : State) (d : Nat) : State :=
  if s.enabled pDEC && s.idleDecoder == some d then State.takeLetter (sumNat (s.slots.map (·.released.length))) s d else s

/-- DECODER_TAKE (R98). -/
def execDecoderTake (dec : Fin 8) (s : State) : Host.Outcome State Fault Refusal := .next (settle s (s.decoderTake dec))

/-- DIRECT_BUFFER_ROOM: a decoder that waits for room finds it (R130). -/
def State.directRoom (s : State) (d : Nat) : State :=
  match s.decOf d with
  | none => s
  | some j =>
    if j.waits then s.setDec d (some (s.placeDirect j)) else s

/-- DIRECT_BUFFER_ROOM (R130). -/
def execDirectBufferRoom (dec : Fin 8) (s : State) : Host.Outcome State Fault Refusal := .next (settle s (s.directRoom dec))

/-! ### Registers (R82, R109) -/

/-- A MAIL.GO or ABORT write waits for its hand-over edge (R74, R75); `late` is a write in a hand-over cycle (R36). In a replay it has no
effect (R602). -/
def State.slotCmd (s : State) (slot : Nat) (abort late : Bool) : State :=
  if s.replaying then s else
  let s : State := { s with mail := { s.mail with cmds := s.mail.cmds ++ [{ slot := slot, abort := abort, late := late }] } }
  if late then s.setLate pMAIL else s

/-- MAIL_GO (R74). -/
def execMailGo (slot : Fin 4) (late : Bool) (s : State) : Host.Outcome State Fault Refusal :=
  .next (settle s ((s.wakeEvent wakeREGISTER).slotCmd slot false late))
/-- MAIL_ABORT (R75). -/
def execMailAbort (slot : Fin 4) (late : Bool) (s : State) : Host.Outcome State Fault Refusal :=
  .next (settle s ((s.wakeEvent wakeREGISTER).slotCmd slot true late))

/-- R622: EN is held 0 in BLANK, RETURNED and SCRAPPED. -/
def State.mailHeld (s : State) : State :=
  if s.life.st = 1 ∨ s.life.st = 2 then s else s.setReg (CTRL pMAIL) (putBit (s.reg (CTRL pMAIL)) 0 false)

/-- A write of a MAIL register, after the store of its bits. -/
def State.writeMail (s : State) (a v : Nat) (late : Bool) : State :=
  if a = CTRL pMAIL then (if bit v 2 then s.mailHeld.mailResume else s.mailHeld)
  else if a = MAIL.GO then (if bit v 8 then s.slotCmd (bits v 1 0) false late else s)
  else if a = MAIL.ABORT then (if bit v 8 then s.slotCmd (bits v 1 0) true late else s)
  else s

/-- State number of R63. -/
def SlotState.code : SlotState → Nat
  | .empty => 0
  | .gathering => 1
  | .staged => 2
  | .leading => 3
  | .writing => 4
  | .draining => 5

/-- What a read of a derived MAIL register returns. -/
def State.readMail (s : State) (a : Nat) : Option Nat :=
  if a = STATUS pMAIL then
    some (s.reg a + (if s.mail.halted.isEmpty then 0 else 16) + s.mail.haltRing * 256 +
      sumNat ((List.range 4).map fun n => if (s.slotOf n).occupied then 2 ^ (16 + n) else 0))
  else if MAIL.SLOT_JOB 0 ≤ a ∧ a < MAIL.SLOT_JOB 4 then
    let x := s.slotOf ((a - MAIL.SLOT_JOB 0) / 32)
    let e := x.ends.getD (2 ^ 48 - 1)
    some (match (a - MAIL.SLOT_JOB 0) % 32 with
      | 0 => x.job
      | 4 => (if x.gap then 256 else 0) + x.st.code
      | 8 => x.nextSeq
      | 12 => x.held.length
      | 16 => x.supply % 2 ^ 32
      | 20 => x.supply / 2 ^ 32
      | 24 => e % 2 ^ 32
      | _ => e / 2 ^ 32)
  else none

/-- What a read of a derived DEC register returns. -/
def State.readDec (s : State) (a : Nat) : Option Nat :=
  if a = STATUS pDEC then some (s.reg a + sumNat ((List.range 8).map fun d => if (s.decOf d).isSome then 2 ^ (8 + d) else 0))
  else if DEC.DSTATE 0 ≤ a ∧ a < DEC.DSTATE 8 then
    let d := (a - DEC.DSTATE 0) / 16
    match (a - DEC.DSTATE 0) % 16, s.decOf d with
    | 0, some j => some (2 ^ 31 + (if j.done then 2 ^ 30 else 0) + j.slot * 2 ^ 24 + letterKind j.bytes)
    | 0, none => some 0
    | 4, some j => some (letterSeq j.bytes)
    | 4, none => some 0
    | _, _ => none
  else none

end Sys2Proof.Machine
end

