-- ==== Sys2Proof/Machine/Cells.lean ====
section
/-! DEFINITION. The cell table, voids and SUSPECT markings, the damage line, decision edges, countersigns, verdicts and the REJECT output
(R76, R77, R131, R132, R242 to R286). -/

namespace Sys2Proof.Machine

/-! ### Parameters of a job (R76) -/

def Slot.maxRate (x : Slot) : Nat := fld x.params 0 4
def Slot.lead (x : Slot) : Nat := fld x.params 4 2
def Slot.doseMode (x : Slot) : Nat := fld x.params 6 1 % 2
def Slot.across (x : Slot) : Nat := fld x.params 7 1
def Slot.repeatLines (x : Slot) : Nat := fld x.params 8 4
def Slot.voidStamp (x : Slot) : Nat := fld x.params 0x0C 2
def Slot.voidLevel (x : Slot) : Nat := fld x.params 0x0E 1
def Slot.budgetLayers (x : Slot) : Nat := fld x.params 0x0F 1
def Slot.budgetStamp (x : Slot) : Nat := fld x.params 0x10 4
def Slot.budgetDirect (x : Slot) : Nat := fld x.params 0x14 4
def Slot.cellFirst (x : Slot) (j : Nat) : Nat := fld x.params (0x20 + 4 * j) 2
def Slot.cellLast (x : Slot) (j : Nat) : Nat := fld x.params (0x22 + 4 * j) 2
def Slot.transfer (x : Slot) (v : Nat) : Nat := fld x.params (0x120 + 2 * v) 2

/-- Row 0 line time at which row 0 writes line 0 (R74, R145). -/
def Slot.start (x : Slot) : Option Nat := x.take.map fun t => t + x.lead
/-- Index of the cell at position `j` of repeat `r` (R77). -/
def Slot.cellIndex (x : Slot) (r j : Nat) : Nat := (r * x.across + j) % 2 ^ 32
/-- First and last line of a cell; the last line of a cut cell is end - 1 (R265). -/
def Slot.firstLine (x : Slot) (c : Cell) : Nat := c.rep * x.repeatLines
def Slot.lastLine (x : Slot) (c : Cell) : Nat :=
  let l := (c.rep + 1) * x.repeatLines
  (match x.ends with
    | none => l
    | some e => min l e) - 1
/-- The cell position of a column (R77). -/
def Slot.posOf (x : Slot) (c : Nat) : Option Nat := (List.range x.across).find? fun j => x.cellFirst j ≤ c && c ≤ x.cellLast j
/-- Every cell position below CELLS_ACROSS, as a mask. -/
def Slot.allMask (x : Slot) : Nat := 2 ^ x.across - 1

/-- The cell has no verdict yet (states 1 to 4 of R253). -/
def Cell.live (c : Cell) : Bool := decide (1 ≤ c.st) && decide (c.st ≤ 4)
/-- The live cell of an index. -/
def Slot.liveCell (x : Slot) (idx : Nat) : Option Cell := x.cells.find? fun c => c.idx == idx && c.live
/-- The entry of an index (R251). -/
def Slot.entry (x : Slot) (idx : Nat) : Option Cell := x.cells.find? fun c => c.idx % 4096 == idx % 4096
/-- The live cell of an index changed. -/
def State.setCell (s : State) (n idx : Nat) (f : Cell → Cell) : State :=
  s.setSlot n fun x => { x with cells := x.cells.map fun c => if c.idx == idx && c.live then f c else c }

/-! ### Lines that the splitter has not taken -/

/-- Bit `pos` of VOID_MASK set on every untaken line of a repeat (R261). -/
def State.maskLines (s : State) (n rep pos : Nat) : State :=
  let x := s.slotOf n
  let upd (r : LineRec) : LineRec :=
    if r.st != 0 && r.slot == n && r.job == x.job && !r.taken && r.line / x.repeatLines == rep then { r with void := r.void ||| 2 ^ pos } else r
  { s with comp := { s.comp with recs := s.comp.recs.map fun p => (p.1, upd p.2) } }

/-- The first line of a job that the splitter has not taken (R131). -/
def State.firstUntaken (s : State) (n : Nat) : Nat :=
  let x := s.slotOf n
  let ls := s.comp.recs.filterMap fun p =>
    if p.2.st != 0 && p.2.slot == n && p.2.job == x.job && !p.2.taken then some p.2.line else none
  ls.foldl min x.composed

/-! ### Shared cells (R242, R247) -/

/-- OVL_PAIR[s][p]: valid, PEER_POS, LOCAL_POS (R249). -/
def State.pairWord (s : State) (side p : Nat) : Nat := s.active (PLACE.OVL_PAIR side p)
/-- Sides whose valid pairs name a cell position of this device. -/
def State.pairSides (s : State) (pos : Nat) : List Nat :=
  (List.range 2).filter fun d => (List.range 4).any fun p => bit (s.pairWord d p) 31 && bits (s.pairWord d p) 5 0 == pos

/-- Body of a VERDICT or MARK message (R400). -/
def verdictBody (job rep pos vkind v : Nat) : List Byte :=
  leBytes 4 job ++ leBytes 4 rep ++ leBytes 1 pos ++ leBytes 1 vkind ++ leBytes 1 v ++ List.replicate 5 0

/-- R247: a SUSPECT marking of a shared cell goes to the peers of its sides, but for the one that it came from. -/
def State.sendMark (s : State) (n : Nat) (c : Cell) (cause : Nat) (notSide : Option Nat) : State :=
  (s.pairSides c.pos).foldl (fun s d =>
    if notSide = some d then s else s.peerToNeighbour d 2 (verdictBody (s.slotOf n).job c.rep c.pos cause 0)) s

/-! ### Voids and markings (R254, R261, R262) -/

/-- A later cause of a cell is written once (R254). -/
def State.laterCause (s : State) (n : Nat) (c : Cell) (cause : Nat) : State :=
  if cause = c.reason ∨ c.later.contains cause then s
  else (s.setCell n c.idx fun c => { c with later := c.later ++ [cause] }).event pSEAL V.LATER_CAUSE
    [.f 4 (s.slotOf n).job, .f 4 c.idx, .f 1 cause]

/-- A cell becomes VOID with a cause (R254). -/
def State.becomeVoid (s : State) (n idx cause : Nat) : State :=
  ((s.setCell n idx fun c => { c with st := 3, reason := cause }).bump SEAL.CELLS_VOIDED 1).raise pSEAL 2

/-- A cell becomes SUSPECT with a cause (R254), and the peers of a shared cell learn it (R247). -/
def State.becomeSuspect (s : State) (n : Nat) (c : Cell) (cause : Nat) (notSide : Option Nat) : State :=
  ((s.setCell n c.idx fun c => { c with st := 4, reason := cause }).raise pSEAL 3).sendMark n c cause notSide

/-- LATE_VOID and other reasons of R278. -/
def rLATE_COUNTERSIGN : Nat := 0x01
def rSEAL_DISAGREE : Nat := 0x02
def rHOST_VOID : Nat := 0x03
def rSTARVED : Nat := 0x04
def rDAMAGE : Nat := 0x05
def rTILE : Nat := 0x06
def rFRANK : Nat := 0x07
def rOVERLAP_VOID : Nat := 0x08
def rCUT : Nat := 0x09
def rPOWER : Nat := 0x0A
def rLATE_VOID : Nat := 0x10
def rCLIPPED : Nat := 0x11
def rTABLE_MISSING : Nat := 0x12
def rPLAN_LOST : Nat := 0x13
def rBEAM_LOST : Nat := 0x14
def rWEAVE_RANGE : Nat := 0x15
def rWEAVE_LOST : Nat := 0x16
def rOVERLAP : Nat := 0x17
def rPEER_SUSPECT : Nat := 0x18
def rECHO_MISMATCH : Nat := 0x19
def rECHO_MISSING : Nat := 0x1A
def rFRAME_LOST : Nat := 0x1B

/-- A void of a cell (R254, R261, R262): every void that reaches a committed shared cell goes to its peers, also where the cell is VOID or
SUSPECT already (R247). -/
def State.voidCell (s : State) (n idx cause : Nat) : State :=
  match (s.slotOf n).liveCell idx with
  | none => s
  | some c =>
    let s := if c.st = 3 ∨ c.st = 4 then
               (if c.committed then (s.laterCause n c cause).sendMark n c rLATE_VOID none else s.laterCause n c cause)
             else if c.committed then s.becomeSuspect n c rLATE_VOID none
             else s.becomeVoid n idx cause
    (s.setCell n idx fun c => { c with masked := true }).maskLines n c.rep c.pos

/-- A SUSPECT marking of a cell (R254); every one of a shared cell goes to its peers (R247). -/
def State.suspectFrom (s : State) (n idx cause : Nat) (notSide : Option Nat) : State :=
  match (s.slotOf n).liveCell idx with
  | none => s
  | some c => if c.st = 3 ∨ c.st = 4 then (s.laterCause n c cause).sendMark n c cause notSide else s.becomeSuspect n c cause notSide

/-- A SUSPECT marking that this device makes. -/
def State.suspectCell (s : State) (n idx cause : Nat) : State := s.suspectFrom n idx cause none

/-- A void of every cell position of a mask on a line of a slot. -/
def State.voidLineCells (s : State) (n line mask cause : Nat) : State :=
  let x := s.slotOf n
  (List.range x.across).foldl (fun s j => if bit mask j then s.voidCell n (x.cellIndex (line / x.repeatLines) j) cause else s) s

/-! ### The damage line (R131, R132) -/

/-- The DAMAGE record (R132). -/
def State.damageRec (s : State) (n v code : Nat) : State := s.event pTILE V.DAMAGE [.f 4 (s.slotOf n).job, .f 2 code, .f 6 v]

/-- R131, R132: D of a slot falls to `v` by an event of a code. -/
def State.actDamage (s : State) (n v code : Nat) : State :=
  let x := s.slotOf n
  if x.damage ≤ v then s
  else
    let s := s.setSlot n fun x => { x with damage := v }
    let s := (s.damageRec n v code).raise pTILE 6
    let upd (r : LineRec) : LineRec :=
      if r.st != 0 && r.slot == n && r.job == x.job && !r.taken && decide (v ≤ r.line) then
        { r with st := 3, void := x.allMask, cause := rDAMAGE } else r
    let s : State := { s with comp := { s.comp with recs := s.comp.recs.map fun p => (p.1, upd p.2) } }
    let hit := if v < x.composed then (s.slotOf n).cells.filter fun c => c.live && decide (v ≤ x.lastLine c) else []
    hit.foldl (fun s c => s.voidCell n c.idx rDAMAGE) s

/-- R131: an event of a code lowers D of a slot; in a replay a live one is written and does not act (R602). -/
def State.lowerDamage (s : State) (n v code : Nat) : State :=
  if s.replaying then (if (s.slotOf n).damage ≤ v then s else (s.damageRec n v code).suppress) else s.actDamage n v code

/-- R315 step 2, R446: committed cells that still have a line that some row has not written become SUSPECT with LATE_VOID. -/
def State.voidCommitted (s : State) : State :=
  (List.range 4).foldl (fun s n =>
    let x := s.slotOf n
    match x.start with
    | none => s
    | some t0 =>
      let hit := x.cells.filter fun c => c.live && c.committed && decide (s.lineTime ≤ t0 + x.lastLine c + (s.rows - 1) * s.spacing)
      hit.foldl (fun s c => s.voidCell n c.idx rLATE_VOID) s) s

/-! ### Decision edges (R256, R257) -/

/-- R of R256. -/
def State.readout (s : State) (x : Slot) : Nat := min (bits (s.active SEAL.READOUT) 10 0) x.lead

/-- Line time of a cell's decision edge, while its job has been taken. -/
def State.decisionAt (s : State) (x : Slot) (c : Cell) : Option Nat := x.start.map fun t0 => t0 + x.firstLine c - s.readout x

/-- A VERDICT record (R248): job, cell, side and the verdict. The byte of the verdict holds V in bit 0 and VKIND in bit 1, coded as in R400,
and in bit 2 whether it is the peer's (DESIGN CHOICE, log 77). -/
def State.verdictUse (s : State) (job idx side vkind v : Nat) (peer : Bool) : State :=
  s.event pPLACE V.VERDICT [.f 4 job, .f 4 idx, .f 1 side, .f 1 (v + 2 * vkind + if peer then 4 else 0)]

/-- R244 step 1: the local verdict of a shared cell, sent to the peers and recorded (R248). -/
def State.localVerdict (s : State) (n : Nat) (c : Cell) : State :=
  let v := if c.st = 2 then 0 else 1
  let job := (s.slotOf n).job
  (s.pairSides c.pos).foldl (fun s d =>
    (s.peerToNeighbour d 1 (verdictBody job c.rep c.pos 0 v)).verdictUse job c.idx d 0 v false)
    (s.setCell n c.idx fun c => { c with localV := some v })

/-- R257: one cell at its decision edge. -/
def State.decideCell (s : State) (n : Nat) (c : Cell) : State :=
  let s := s.setCell n c.idx fun c => { c with decided := true }
  let s := if c.st = 1 then
      (s.error pSEAL E.LATE_COUNTERSIGN [.f 4 (s.slotOf n).job, .f 4 c.idx]).voidCell n c.idx rLATE_COUNTERSIGN
    else if c.st = 4 then (s.setCell n c.idx fun c => { c with masked := true }).maskLines n c.rep c.pos
    else s
  match (s.slotOf n).liveCell c.idx with
  | none => s
  | some c => s.localVerdict n c

/-- R257: every cell of a slot whose decision edge has come. -/
def State.decideSlot (s : State) (n : Nat) : State :=
  let x := s.slotOf n
  let due := x.cells.filter fun c => c.live && !c.decided && match s.decisionAt x c with
    | none => false
    | some t => decide (t ≤ s.lineTime)
  due.foldl (fun s c => s.decideCell n c) s

/-- DECISION_EDGE (R257). -/
def execDecisionEdge (s : State) : Host.Outcome State Fault Refusal := .next (settle s ((List.range 4).foldl State.decideSlot s))

/-! ### Countersigns (R258 to R260, R266 to R269) -/

def csJob (b : List Byte) : Nat := fld b 0 4
def csCell (b : List Byte) : Nat := fld b 4 4
def csSeal (b : List Byte) : Nat := fld b 8 4
def csTarget (b : List Byte) : Nat := fld b 12 2 % 1024
def csFlags (b : List Byte) : Nat := fld b 14 1

/-- The COUNTERSIGN record (R269). -/
def State.csRecord (s : State) (b : List Byte) (lt outcome : Nat) : State :=
  s.post { src := pSEAL, code := V.COUNTERSIGN, aux := some lt,
           flds := [.f 4 (csJob b), .f 4 (csCell b), .f 4 (csSeal b), .f 1 (csFlags b), .f 1 outcome] }

/-- A countersign that is dropped or has no effect (R259). -/
def State.csDropped (s : State) (b : List Byte) (lt outcome : Nat) : State := (s.bump SEAL.CS_DROPPED 1).csRecord b lt outcome

/-- A countersign at or after its cell's decision edge (R258). -/
def State.csLate (s : State) (b : List Byte) (lt : Nat) : State := ((s.bump SEAL.CS_LATE 1).raise pSEAL 6).csRecord b lt 6

/-- R260, R266: a reserved bit of a countersign is not 0. -/
def csReserved (b : List Byte) : Bool := decide (2 ≤ csFlags b) || fld b 15 1 != 0 || decide (1024 ≤ fld b 12 2)

/-- R259 on a live cell: the outcome and the state. A countersign without effect is no applied one (log 36). -/
def State.applySign (s : State) (n : Nat) (c : Cell) (sealV : Nat) (void : Bool) : Nat × State :=
  if c.signed then (5, s)
  else if c.st = 3 ∨ c.st = 4 then (4, s)
  else
    let signed := s.setCell n c.idx fun c => { c with signed := true }
    if void then (2, signed.voidCell n c.idx rHOST_VOID)
    else if c.st = 1 then
      if c.sealVal = some sealV then (0, (signed.setCell n c.idx fun c => { c with st := 2 }).bump SEAL.CS_CONFIRMED 1)
      else
        (1, ((signed.error pSEAL E.SEAL_DISAGREE [.f 4 (s.slotOf n).job, .f 4 c.idx]).bump SEAL.CS_DISAGREE 1).voidCell n c.idx rSEAL_DISAGREE)
    else (4, s)

/-- R259: a countersign for a FREE cell is held, and its entry becomes EARLY. -/
def State.holdSign (s : State) (n : Nat) (b : List Byte) : State :=
  let e : Cell := { idx := csCell b, st := 7, signed := true, heldSeal := csSeal b, heldVoid := bit (csFlags b) 0 }
  s.setSlot n fun x => { x with cells := (x.cells.filter fun c => c.idx % 4096 != csCell b % 4096) ++ [e] }

/-- The slot that a countersign names, where R260 does not drop it. -/
def State.csSlot (s : State) (b : List Byte) (origin letterJob : Nat) : Option Nat :=
  match s.slotOfJob (csJob b) with
  | none => none
  | some n =>
    let x := s.slotOf n
    if x.st == .gathering || decide (4096 ≤ (csCell b + 2 ^ 32 - x.base) % 2 ^ 32) || csReserved b ||
       (origin == 1 && csJob b != letterJob) then none
    else some n

/-- R258 to R260, R269: a countersign taken in line time `lt`; it is late where its cell's decision edge lies at or before `edge`. -/
def State.countersign (s : State) (b : List Byte) (origin letterJob lt edge : Nat) : State :=
  let s := s.bump SEAL.CS_TAKEN 1
  match s.csSlot b origin letterJob with
  | none => s.csDropped b lt 5
  | some n =>
    let x := s.slotOf n
    match x.liveCell (csCell b) with
    | some c =>
      if (s.decisionAt x c).any fun t => decide (t ≤ edge) then s.csLate b lt
      else
        let (o, t) := s.applySign n c (csSeal b) (bit (csFlags b) 0)
        if 4 ≤ o then t.csDropped b lt o else t.csRecord b lt o
    | none =>
      match x.entry (csCell b) with
      | some c => if c.st = 7 then s.csDropped b lt 5 else (s.holdSign n b).csRecord b lt 3
      | none => (s.holdSign n b).csRecord b lt 3

/-- The slot whose job is to follow composition's last one (R72, R74) is `n`, and a GO for it acts at the coming edge while composition makes
idle lines. -/
def State.goNext (s : State) (n : Nat) : Bool :=
  s.enabled pTILE && (s.slotOf n).st == .staged && s.comp.on.isNone &&
  (s.mail.cmds.any fun c => c.slot == n && !c.abort && !c.late) && !(s.mail.cmds.any fun c => c.slot == n && c.abort && !c.late)

/-- R258: the cell of a countersign has its decision edge at the edge that comes next. Where R is LEAD and MAIL.GO starts the job at that
edge, the cells of repeat 0 are assigned and decided there (R257). -/
def State.csDueNow (s : State) (b : List Byte) : Bool :=
  match s.slotOfJob (csJob b) with
  | none => false
  | some n =>
    let x := s.slotOf n
    match x.liveCell (csCell b) with
    | none => s.goNext n && s.readout x == x.lead && decide (csCell b < x.across)
    | some c => s.decisionAt x c == some s.nextLine

/-- The seal unit takes a countersign; one taken in a hand-over cycle waits for the edge after the one that ends the cycle (R258). In a replay it takes
none of these: each has its record, with the outcome of one that was dropped, and does not act (R602; DESIGN CHOICE, log 30). -/
def State.takeSign (s : State) (b : List Byte) (origin letterJob : Nat) (late : Bool) : State :=
  if s.replaying then (s.csRecord b s.lineTime 5).suppress
  else if late then
    let s := if s.csDueNow b then s.setLate pSEAL else s
    { s with sealU := { s.sealU with
        deferred := s.sealU.deferred ++ [{ bytes := b, origin := origin, letterJob := letterJob, lt := s.lineTime }] } }
  else s.countersign b origin letterJob s.lineTime s.lineTime

/-- R258: countersigns taken in the hand-over cycle of the edge before are applied at this edge, before it decides cells; those taken in the
cycle that ends at this edge wait for the next. -/
def State.takeDeferred (s : State) : State :=
  (s.sealU.deferred.filter fun d => !d.waits).foldl (fun s d => s.countersign d.bytes d.origin d.letterJob d.lt (s.lineTime - 1))
    { s with sealU := { s.sealU with deferred := (s.sealU.deferred.filter (·.waits)).map fun d => { d with waits := false } } }

/-- COUNTERSIGN_TAKE: the next countersign of the ring (R268). -/
def State.countersignTake (s : State) (late : Bool) : State :=
  match s.dma.countersigns with
  | [] => s
  | b :: rest =>
    if bit (s.reg (CTRL pSEAL)) 1 && !s.replaying then
      let s : State := { s with dma := { s.dma with countersigns := rest } }
      if csTarget b = s.deviceNo then s.takeSign b 0 0 late else s.peerToDevice 4 (csTarget b) b
    else s

/-- COUNTERSIGN_TAKE (R268). -/
def execCountersignTake (late : Bool) (s : State) : Host.Outcome State Fault Refusal := .next (settle s (s.countersignTake late))

/-- PEER_COUNTERSIGN: a countersign that came along the chain (R259, R400). -/
def execPeerCountersign (body : List Byte) (late : Bool) (s : State) : Host.Outcome State Fault Refusal :=
  .next (settle s ((s.inboxTaken 4 body).takeSign body 2 0 late))

/-! ### Assignment (R251, R254) -/

/-- The entry of a cell is taken (R251, R254): a held countersign is applied as one taken before the decision edge. -/
def State.assignCell (s : State) (n rep pos : Nat) (sealV : Option Nat) : State :=
  let x := s.slotOf n
  let idx := x.cellIndex rep pos
  let held := x.cells.find? fun c => c.idx == idx && c.st == 7
  let c : Cell := { idx := idx, st := if sealV.isSome then 1 else 2, rep := rep, pos := pos, sealVal := sealV }
  let s := s.setSlot n fun x => { x with
    cells := (x.cells.filter fun e => e.idx % 4096 != idx % 4096) ++ [c], nextCell := (idx + 1) % 2 ^ 32 }
  match held with
  | none => s
  | some h =>
    let (o, t) := s.applySign n c h.heldSeal h.heldVoid
    if 4 ≤ o then t.bump SEAL.CS_DROPPED 1 else t

/-! ### Cut cells (R265) -/

/-- R265: the end of a slot's job cuts the cells of the repeat that it falls into. -/
def State.cutCells (s : State) (n e : Nat) : State :=
  let x := s.slotOf n
  if e % x.repeatLines = 0 then s
  else (List.range x.across).foldl (fun s j =>
    match (s.slotOf n).liveCell (x.cellIndex (e / x.repeatLines) j) with
    | none => s
    | some c =>
      if c.committed && (c.st == 1 || c.st == 2) then
        let s := s.voidCell n c.idx rLATE_VOID
        match (s.slotOf n).liveCell c.idx with
        | none => s
        | some c => s.laterCause n c rCUT
      else s.voidCell n c.idx rCUT) s

/-- R69, R75: the end of a job and its supply mark are set. -/
def State.setEnd (s : State) (n lines : Nat) : State :=
  let e := max lines (s.slotOf n).composed
  (s.setSlot n fun x => { x with ends := some e, supply := e }).cutCells n e

/-! ### REJECT (R279 to R283) -/

/-- The 80 bits of a record (R280). -/
def State.rejectBits (s : State) (r : Reject) : Nat :=
  let hi := ((((0xD5 * 2 ^ 10 + s.deviceNo) * 4 + r.typ) * 256 + (if r.typ = 0 then r.reason else 0)) * 256 +
             (if r.typ = 1 then 0 else r.job % 256)) * 2 ^ 32 + (if r.typ = 1 then 0 else r.cell)
  let hi := hi * 16
  hi * 256 + crc8 (leBytes 9 hi).reverse

/-- R279, R282: a record joins the queue, or is dropped and counted; in a replay REJECT sends none (R602). -/
def State.queueReject (s : State) (r : Reject) : State :=
  if s.replaying then s
  else if s.sealU.rejects.length < 256 then { s with sealU := { s.sealU with rejects := s.sealU.rejects ++ [r] } }
  else ({ s with sealU := { s.sealU with dropped := s.sealU.dropped + 1 } } : State).bump SEAL.REJECT_DROPPED 1 |>.raise pSEAL 5

/-- A record boundary: REJECT_CFG takes effect (R284). -/
def State.rejectBoundary (s : State) : State := { s with sealU := { s.sealU with cfg := s.reg SEAL.REJECT_CFG } }

/-- A write of REJECT_CFG acts at the end of the record that is being sent, or at once while none is. -/
def State.writeSeal (s : State) (a : Nat) : State := if a = SEAL.REJECT_CFG && s.sealU.rejects.isEmpty then s.rejectBoundary else s

/-- REJECT_RECORD_DONE: the record at the front of the queue has been sent; a LOST record takes the space where records were dropped
(R282). JOB_LOW of a LOST record is the spec's to state and is left 0 (log 24). -/
def State.rejectDone (s : State) : State :=
  if s.replaying then s else
  match s.sealU.rejects with
  | [] => s
  | r :: rest =>
    let s := (s.emit (.reject (s.rejectBits r))).bump SEAL.REJECT_RECORDS 1
    let n := s.sealU.dropped
    let q := if n = 0 then rest else rest ++ [{ typ := 2, reason := 0, job := 0, cell := n }]
    ({ s with sealU := { s.sealU with rejects := q, dropped := 0 } } : State).rejectBoundary

/-- REJECT_RECORD_DONE (R281). -/
def execRejectRecordDone (s : State) : Host.Outcome State Fault Refusal := .next (settle s s.rejectDone)

/-- KEEPALIVE: no record has been sent for REJECT_CFG.KEEPALIVE ms (R283). -/
def State.keepalive (s : State) : State :=
  if bits s.sealU.cfg 11 0 = 0 ∨ !bit (s.reg (CTRL pSEAL)) 2 ∨ !s.sealU.rejects.isEmpty ∨ s.replaying then s
  else (s.emit (.reject (s.rejectBits { typ := 1, reason := 0, job := 0, cell := 0 }))).bump SEAL.REJECT_RECORDS 1

/-- KEEPALIVE (R283). -/
def execKeepalive (s : State) : Host.Outcome State Fault Refusal := .next (settle s s.keepalive)

/-! ### Verdicts (R276, R277) -/

/-- The CELL_VERDICT record (R276, R277). -/
def State.verdictRec (s : State) (job idx st reason : Nat) : State :=
  s.event pSEAL V.CELL_VERDICT [.f 4 job, .f 4 idx, .f 1 st, .f 1 reason]

/-- R276, R279: the verdict of one cell. -/
def State.cellVerdict (s : State) (n : Nat) (c : Cell) : State :=
  let job := (s.slotOf n).job
  let bad := c.st != 2
  let s := (s.setCell n c.idx fun c => { c with st := if bad then 6 else 5 }).setSlot n fun x => { x with base := (c.idx + 1) % 2 ^ 32 }
  let s := s.verdictRec job c.idx (if bad then 6 else 5) (if bad then c.reason else 0)
  let s := s.bump (if bad then SEAL.CELLS_REJECTED else SEAL.CELLS_WRITTEN) 1
  if bit (s.reg (CTRL pSEAL)) 2 && (bad || bit s.sealU.cfg 15) then
    s.queueReject { typ := if bad then 0 else 3, reason := if bad then c.reason else 0, job := job, cell := c.idx }
  else s

/-- The live cells of a slot, in ascending index from its base. -/
def Slot.liveCells (x : Slot) : List Cell :=
  sortBy (fun c => (c.idx + 2 ^ 32 - x.base) % 2 ^ 32) (x.cells.filter (·.live))

/-- Verdict line of the last line `l` of a cell, as a row 0 line time (R276). -/
def State.verdictAt (s : State) (t0 l : Nat) : Nat := t0 + l + (s.rows - 1) * s.spacing + 4

/-- R276: the verdicts of a slot that are due. -/
def State.verdictSlot (s : State) (n : Nat) : State :=
  let x := s.slotOf n
  match x.start with
  | none => s
  | some t0 =>
    let hasLine (c : Cell) : Bool := match x.ends with
      | none => true
      | some e => decide (x.firstLine c < e)
    (x.liveCells.filter fun c => hasLine c && decide (s.verdictAt t0 (x.lastLine c) ≤ s.lineTime)).foldl (fun s c => s.cellVerdict n c) s

/-- R277: what is left in a cell table as its slot becomes EMPTY: a cell without a line is freed with a record, an EARLY entry without. -/
def State.freeCells (s : State) (n : Nat) : State :=
  let x := s.slotOf n
  let s := x.liveCells.foldl (fun s c =>
    (s.setCell n c.idx fun c => { c with st := 0, reason := 0 }).verdictRec x.job c.idx 0 0) s
  s.setSlot n fun x => { x with cells := x.cells.filter fun c => c.st != 7 }

/-- The slot becomes EMPTY: everything of its job goes (R64, R119, R125, R158, R178, R277), so that SLOT_JOB, SLOT_NEXT_SEQ, SLOT_HELD, SLOT_SUPPLY
and SLOT_END read their reset values again (DESIGN CHOICE, log 72: R82 does not say what they read then); final states of cells stay shown (R284). -/
def State.releaseSlot (s : State) (n : Nat) : State :=
  let s := ((s.freeCells n).dropLetters n).slotTo n .empty
  s.setSlot n fun x => { cells := x.cells }

/-- R64, R71: a DRAINING slot whose last echo is due becomes EMPTY, with its JOB_DONE record. -/
def State.jobDone (s : State) (n : Nat) : State :=
  let x := s.slotOf n
  match x.st, x.start, x.ends with
  | .draining, some t0, some e =>
    if (if e = 0 then t0 else s.verdictAt t0 (e - 1)) ≤ s.lineTime then (s.event pMAIL V.JOB_DONE [.f 4 x.job]).releaseSlot n else s
  | _, _, _ => s

/-- VERDICT: the verdicts due at this edge, then the slots that become EMPTY (R64, R276). -/
def State.verdicts (s : State) : State := (List.range 4).foldl State.jobDone ((List.range 4).foldl State.verdictSlot s)

/-! ### Registers (R284) -/

/-- CELL_INFO of the cell that CELL_SEL and CELL_IDX name. -/
def State.cellInfo (s : State) : Nat :=
  let idx := s.reg SEAL.CELL_IDX
  match (s.slotOf (bits (s.reg SEAL.CELL_SEL) 1 0)).entry idx with
  | none => 0
  | some c =>
    c.st * 2 ^ 29 + (if (s.pairSides c.pos).isEmpty || c.st == 7 then 0 else 2 ^ 28) + (if c.signed then 2 ^ 27 else 0) +
    (if c.sealVal.isSome then 2 ^ 26 else 0) + (if c.idx = idx then 2 ^ 25 else 0) + c.reason * 2 ^ 16

/-- What a read of a derived SEAL register returns. -/
def State.readSeal (s : State) (a : Nat) : Option Nat :=
  if a = SEAL.CELL_INFO then some s.cellInfo
  else if a = SEAL.CELL_SEAL then
    some ((((s.slotOf (bits (s.reg SEAL.CELL_SEL) 1 0)).entry (s.reg SEAL.CELL_IDX)).bind (·.sealVal)).getD 0)
  else if a = SEAL.REJECT_QUEUE then some s.sealU.rejects.length
  else if a = STATUS pSEAL then some (s.reg a + if s.sealU.rejects.length = 256 then 16 else 0)
  else if SEAL.SLOT_BASE 0 ≤ a ∧ a < SEAL.SLOT_BASE 4 then
    let x := s.slotOf ((a - SEAL.SLOT_BASE 0) / 8)
    some (if (a - SEAL.SLOT_BASE 0) % 8 = 0 then (if x.liveCells.isEmpty then x.nextCell else x.base) else x.liveCells.length)
  else none

end Sys2Proof.Machine
end

