-- ==== Sys2Proof/Machine/Letters.lean ====
section
/-! DEFINITION. The end of a decode and the effects of letters that become visible (R52, R65 to R70, R76 to R80, R95 to R97, R114 to R132,
R156 to R162, R176 to R181, R659). -/

namespace Sys2Proof.Machine

/-! ### Checks of decoded payloads (R122, R128, R157, R160, R177, R659) -/

/-- The first of a list of conditions that holds, as BAD_CODE at its offset. -/
def firstBad : List (Bool × Nat) → Option DecFault
  | [] => none
  | (b, o) :: cs => if b then some { code := E.BAD_CODE, off := o } else firstBad cs

/-- Posting `i` of a payload, before it has a stamp's height (R121). -/
def postingAt (out : List Byte) (i : Nat) : Posting :=
  let b := 24 * i
  { stamp := fld out b 2, layer := fld out (b + 2) 1 % 8, op := fld out (b + 3) 1, column := sInt 32 (fld out (b + 4) 4),
    line := fld out (b + 8) 6, count := fld out (b + 16) 4, step := fld out (b + 20) 4, h := 1 }

/-- R122: the conditions of posting `i`. -/
def postingConds (out : List Byte) (i : Nat) : List (Bool × Nat) :=
  let p := postingAt out i
  let b := 24 * i
  [(decide (4095 < p.stamp), b), (decide (7 < fld out (b + 2) 1), b + 2), (decide (5 < p.op), b + 3),
   (decide (p.column < -65536) || decide (65535 < p.column), b + 4), (fld out (b + 14) 2 != 0, b + 14)]

/-- R128: the conditions of a DIRECT payload. -/
def directConds (raw : Nat) (out : List Byte) : List (Bool × Nat) :=
  [(raw != 16 + fld out 12 3 * fld out 8 4, 0), (decide (5 < fld out 15 1), 15), (decide (65536 < fld out 8 4), 8)]

/-- R157: the conditions of a GLYPH_SET payload, condition by condition over all entries where a condition speaks of several; of two entries that
share one CODE, the field concerned is the later entry's (DESIGN CHOICE, log 77: the spec does not say which). -/
def glyphConds (raw : Nat) (out : List Byte) : List (Bool × Nat) :=
  let g := fld out 0 2
  let es := (List.range (min g 256)).map fun i => 4 + 12 * i
  [(decide (256 < g), 0), (decide (raw < 4 + 12 * g), 0)] ++
  es.flatMap (fun b => [(fld out (b + 2) 2 == 0 || decide (256 < fld out (b + 2) 2), b + 2),
                        (fld out (b + 4) 2 == 0 || decide (256 < fld out (b + 4) 2), b + 4), (decide (512 < fld out (b + 6) 2), b + 6)]) ++
  es.map (fun b => (es.any fun c => decide (c < b) && fld out c 1 == fld out b 1, b)) ++
  es.map (fun b => (decide (raw < fld out (b + 8) 4 + fld out (b + 2) 2 * fld out (b + 4) 2), b + 8)) ++
  (fld out 2 2 != 0, 2) :: es.map (fun b => (fld out (b + 1) 1 != 0, b + 1))

/-- R160: the conditions of a FRANK_DEF payload; `across` is the job's CELLS_ACROSS, or none before its JOB_OPEN is visible. -/
def frankConds (across : Option Nat) (o : List Byte) : List (Bool × Nat) :=
  let counter := fld o 0 1 == 0
  let m := fld o 40 8
  [(decide (1 < fld o 0 1), 0), (decide (7 < fld o 1 1), 1), (decide (5 < fld o 2 1), 2), (counter && decide (3 < fld o 7 1), 7),
   (counter && decide (2 < fld o 5 1), 5), (counter && decide (1 < fld o 3 1), 3),
   (counter && (fld o 4 1 == 0 || decide ((if fld o 3 1 = 0 then 20 else 13) < fld o 4 1)), 4),
   (counter && fld o 5 1 != 0 && fld o 3 1 == 1, 5), (m != 0 && decide (m ≤ fld o 24 8), 24), (m != 0 && decide (m ≤ fld o 32 8), 32),
   (!counter && (fld o 48 2 == 0 || decide (2048 < fld o 48 2)), 48), (!counter && (fld o 50 2 == 0 || decide (2048 < fld o 50 2)), 50),
   (match across with
    | none => false
    | some a => decide (2 ^ a ≤ fld o 16 8), 16),
   (decide (8 ≤ fld o 6 1), 6), (fld o 10 2 != 0, 10), (fld o 52 4 != 0, 52)]

/-- R177: the conditions of an ENCLOSURE payload, before it becomes visible. -/
def enclosureConds (raw : Nat) (o : List Byte) : List (Bool × Nat) :=
  [(fld o 2 2 == 0 || fld o 4 2 == 0, 0), (raw != 16 + fld o 2 2 * fld o 4 2, 0),
   (fld o 1 1 != 0 || fld o 6 2 != 0 || fld o 12 4 != 0, 0)]

/-- CELLS_ACROSS of the job on slot `n`, once its JOB_OPEN is visible. -/
def State.acrossOf (s : State) (n : Nat) : Option Nat :=
  if (s.slotOf n).st = .gathering then none else some (s.slotOf n).across

/-- R659: the first payload condition that a decoded letter fails; an empty payload has none (R94). A POSTING_TABLE is judged posting by posting,
each by the conditions in their order (DESIGN CHOICE, log 77: R659 orders conditions, not postings). -/
def State.payloadFault (s : State) (n : Nat) (l out : List Byte) : Option DecFault :=
  let k := letterKind l
  let raw := letterRaw l
  if raw = 0 then none
  else if k = kPOSTING_TABLE then firstBad ((List.range (letterAux l)).flatMap (postingConds out))
  else if k = kDIRECT then firstBad (directConds raw out)
  else if k = kGLYPH_SET then firstBad (glyphConds raw out)
  else if k = kFRANK_DEF then firstBad (frankConds (s.acrossOf n) (out.take 56))
  else if k = kENCLOSURE then firstBad (enclosureConds raw out)
  else none

/-! ### Faults (R95 to R97) -/

/-- The counter of a decoder fault code. -/
def decCounter (code : Nat) : Nat :=
  if code = E.BAD_CODE then DEC.BAD_CODES
  else if code = E.FAR_DISTANCE then DEC.FAR_DISTANCES
  else if code = E.LENGTH_OVERRUN then DEC.LENGTH_OVERRUNS
  else DEC.CHECK_MISMATCHES

/-- R95: the record, registers and interrupt of a decoder fault. -/
def State.decRecord (s : State) (d : Nat) (l : List Byte) (f : DecFault) : State :=
  let s := s.error pDEC f.code [.f 4 (letterJob l), .f 4 (letterSeq l), .f 1 (letterKind l), .f 1 d, .f 4 f.off]
  let s := ((s.setReg DEC.FAULT_JOB (letterJob l)).setReg DEC.FAULT_SEQ (letterSeq l)).setReg DEC.FAULT_OFFSET f.off
  let s := s.setReg DEC.FAULT_INFO (f.code * 2 ^ 16 + d * 2 ^ 8 + letterKind l)
  ((s.bump (DEC.DFAULTS d) 1).bump (decCounter f.code) 1).raise pDEC 2

/-- R65, R97: a JOB_OPEN is refused. -/
def State.refuseJob (s : State) (n : Nat) : State := ((s.bump MAIL.REFUSED 1).raise pMAIL 5).releaseSlot n

/-- R97: the lines that a faulted DIRECT letter carries, where its header has been decoded, are starved. -/
def State.starveDirect (s : State) (n : Nat) (out : List Byte) : State :=
  if out.length < 16 ∨ fld out 12 3 = 0 then s
  else s.setSlot n fun x => { x with starved := x.starved ++ [{ first := fld out 0 6, count := fld out 12 3 }] }

/-- R95, R97, R131: decoder `d` reports a fault of its letter, of which `out` had been decoded, and becomes free. -/
def State.decFault (s : State) (d : Nat) (j : DecJob) (f : DecFault) (out : List Byte) : State :=
  let s := (s.setDec d none).decRecord d j.bytes f
  let k := letterKind j.bytes
  if k = kJOB_OPEN then s.refuseJob j.slot
  else if k = kPOSTING_TABLE then s.lowerDamage j.slot (s.slotOf j.slot).composed f.code
  else if k = kDIRECT then s.starveDirect j.slot out
  else s

/-! ### Storage (R116, R178) -/

/-- The rows of a bitmap stored at its pitch (R116). -/
def pitchRows (w h : Nat) (px : List Byte) : List Byte :=
  (List.range h).flatMap fun y => (px.drop (y * w)).take w ++ List.replicate (pitch w - w) 0

/-- Device memory of a bitmap of `n` bytes in a frame sequence (R116). -/
def State.frameRegions (s : State) (fs : List Nat) (n : Nat) : List (Nat × Nat) :=
  fs.zipIdx.map fun f => (s.albumBase + f.1 * 2 ^ 21, min (2 ^ 21) (n - f.2 * 2 ^ 21))

/-- Device memory of up to 2 MiB of a frame sequence, from a byte offset (R116). -/
def State.framesAt (s : State) (fs : List Nat) (off n : Nat) : List (Nat × Nat) :=
  let o := off % 2 ^ 21
  let m := min n (2 ^ 21 - o)
  let i := off / 2 ^ 21
  (s.albumBase + fs.getD i 0 * 2 ^ 21 + o, m) :: if m < n then [(s.albumBase + fs.getD (i + 1) 0 * 2 ^ 21, n - m)] else []

/-- First scratch byte of the glyph pool, and the address of page `p` of it (R158). -/
def State.glyphPage (s : State) (p : Nat) : Nat := scratchBase + s.active FRANK.GLYPH_LO + 4096 * p

/-- Device memory of a glyph set's payload of `n` bytes (R158). -/
def State.pageRegions (s : State) (ps : List Nat) (n : Nat) : List (Nat × Nat) :=
  ps.zipIdx.map fun p => (s.glyphPage p.1, min 4096 (n - p.2 * 4096))

/-- Device memory of `n` bytes of a glyph set's payload, from an offset (R158). -/
def State.glyphAt (s : State) (g : GlyphSet) (off n : Nat) : List (Nat × Nat) :=
  subRegions (g.pages.map fun p => (s.glyphPage p, 4096)) off n

/-- Bytes of a glyph set's payload (R158). -/
def State.glyphBytes (s : State) (g : GlyphSet) (off n : Nat) : List Byte := s.loadAll (s.glyphAt g off n)

/-! ### DECODE_DONE (R93, R96, R178, R495) -/

/-- Decoder output in KiB (R109). -/
def State.countOut (s : State) (d n : Nat) : State :=
  let b := s.mail.decBytes.getD d 0 + n
  ({ s with mail := { s.mail with decBytes := s.mail.decBytes.set d (b % 1024) } } : State).bump (DEC.DOUT d) (b / 1024)

/-- What a kind keeps of a decoded output outside the mailbag region, and where (R116, R130, R158, R178). -/
def State.outStore (s : State) (j : DecJob) (out : List Byte) : List (Nat × Nat) × List Byte :=
  let k := letterKind j.bytes
  if k = kSTAMP then
    match stampHead j.bytes with
    | none => ([], [])
    | some h =>
      let px := pitchRows h.stride (letterRaw j.bytes / h.stride) out
      (s.frameRegions j.frames px.length, px)
  else if k = kENCLOSURE then
    let px := pitchRows (fld out 2 2) (fld out 4 2) (out.drop 16)
    (s.frameRegions j.frames px.length, px)
  else if k = kGLYPH_SET then (s.pageRegions j.frames out.length, out)
  else if k = kDIRECT then (placeRegions s.directBase j.place, out)
  else ([], [])

/-- The output is written where its kind keeps it (R116, R130, R158, R178, R484). -/
def State.storeOut (s : State) (j : DecJob) (out : List Byte) (mem : MemRep) : State :=
  let (rs, bs) := s.outStore j out
  let s := ((s.touch rs).storeRegions mDEC mem.faults rs bs).spoilWrites mem.faults rs
  if outsideMailbag (letterKind j.bytes) || out.isEmpty then s else s.bagStore j.slot (letterSeq j.bytes) true [] out

/-- The letter as it lies in the mailbag region, but for its header, which the mailbag has read (R484). -/
def State.letterOf (s : State) (j : DecJob) : List Byte :=
  j.bytes.take 32 ++ (s.bagRead (s.bagEntry j.slot (letterSeq j.bytes) false) j.bytes).drop 32

/-- Every poisoned write of a decoder lies in what it stores of a STAMP or ENCLOSURE in the album (R495). -/
def State.albumPoison (s : State) (j : DecJob) (out : List Byte) (mem : MemRep) : Bool :=
  (letterKind j.bytes == kSTAMP || letterKind j.bytes == kENCLOSURE) &&
  (writeFails mem.faults).all fun u => (s.outStore j out).1.any fun r => overlaps u.1 u.2 r.1 r.2

/-- R495: a failed request of a decoder, or one of the letter's arrival, ends its letter: an album write of a STAMP or ENCLOSURE makes it BAD and
lowers D; any other faults it with CHECK_MISMATCH. -/
def State.decPoison (s : State) (d : Nat) (j : DecJob) (out : List Byte) (album : Bool) : State :=
  if album then
    (s.setDec d (some { j with done := true, out := out, bad := true })).lowerDamage j.slot (s.slotOf j.slot).composed V.POISONED_REQ
  else s.decFault d j { code := E.CHECK_MISMATCH, off := letterLength j.bytes } out

/-- The write of the letter into the mailbag region was poisoned (R495). -/
def State.bagBad (s : State) (j : DecJob) : Bool := (s.bagEntry j.slot (letterSeq j.bytes) false).any (·.bad)

/-- The end of a decode whose output is `r`, after its frames are allocated: a poisoned read of the letter comes before what the decode of such
bytes finds; a poisoned write of the output comes after it (R495). A scratch word of a glyph set whose write was lost ends no letter. -/
def State.decodeEnds (s : State) (d : Nat) (j : DecJob) (r : Decoded) (mem : MemRep) : State :=
  if s.bagBad j || mem.faults.any (fun f => isPoison f && failsRead f) then s.decPoison d j r.out false
  else if r.code ≠ E.NONE ∧ r.code ≠ E.ZERO then s.decFault d j { code := r.code, off := r.off } r.out
  else match s.payloadFault j.slot j.bytes r.out with
    | some f => s.decFault d j f r.out
    | none =>
      let t := s.storeOut j r.out mem
      if mem.faults.any isPoison then t.decPoison d j r.out (s.albumPoison j r.out mem)
      else t.setDec d (some { j with done := true, out := r.out })

/-- Device memory that the end of a decode reads and writes. -/
def State.decRegions (s : State) (j : DecJob) (out : List Byte) : List (Nat × Nat) :=
  s.bagRegions (s.bagEntry j.slot (letterSeq j.bytes) false) ++ (s.outStore j out).1 ++
  if outsideMailbag (letterKind j.bytes) then [] else placeRegions s.mailBase (s.bagPlace out.length)

/-- DECODE_DONE: a decoder ends its letter (R93), once its memory serves requests (R500, R505); an ENCLOSURE's frames are allocated once 16 bytes
are out (R178). -/
def State.decodeDone (s : State) (d : Nat) (mem : MemRep) : State :=
  match s.decOf d with
  | none => s
  | some j =>
    if j.done || j.waits || !s.enabled pDEC then s
    else
      let l := s.letterOf j
      let r := decodePayload (letterPayload l) (letterRaw l) (letterCheck l) (letterQlc l) (letterKind l == kSTAMP)
      let frames := letterKind l == kENCLOSURE && decide (16 ≤ r.out.length)
      let need := framesOf (fld r.out 2 2) (fld r.out 4 2)
      let free := s.freeFrames
      let j := if frames then { j with frames := free.take need } else j
      if !s.served (s.decRegions j r.out) then s
      else
        let mem := s.meets ((s.outStore j r.out).1.flatMap fun p => partReads p.1 p.2) mem
        let s := (s.touch (s.bagRegions (s.bagEntry j.slot (letterSeq j.bytes) false))).memReport .decoder mDEC mem
        match j.pre with
        | some f => s.decFault d j f r.out
        | none =>
          let s := s.countOut d r.out.length
          if frames && decide (free.length < need) then (s.setDec d none).albumFull l else s.decodeEnds d j r mem

/-- DECODE_DONE (R93). -/
def execDecodeDone (dec : Fin 8) (mem : MemRep) (s : State) : Host.Outcome State Fault Refusal :=
  .next (settle s (s.decodeDone dec mem))

/-! ### Becoming visible (R52, R98) -/

/-- The letter of decoder `d`, of kind `k`, whose every earlier letter of the job is visible. -/
def State.visible (s : State) (d k : Nat) : Option DecJob :=
  match s.decOf d with
  | none => none
  | some j =>
    if j.done && letterKind j.bytes == k && !((s.slotOf j.slot).released.any fun r => decide (r.1 < j.ord)) &&
       !(s.mail.decs.any fun e => match e with
         | some i => i.slot == j.slot && decide (i.ord < j.ord)
         | none => false) then some j else none

/-- The letter of decoder `d` becomes visible with the effect `f`, and the decoder is free. Its output is read from the mailbag region where it
waited there, once that memory serves requests (R484, R500, R505); where a read of it is poisoned the letter faults (R495). -/
def State.apply (s : State) (d k : Nat) (mem : MemRep) (f : State → DecJob → State) : State :=
  match s.visible d k with
  | none => s
  | some j =>
    let e := s.bagEntry j.slot (letterSeq j.bytes) true
    let rs := s.bagRegions e
    if !s.served rs then s
    else if rs.isEmpty then f (s.setDec d none) j
    else
      let s := (s.touch rs).memReport .mailbag mDMA mem
      if mem.faults.any isPoison then s.decFault d j { code := E.CHECK_MISMATCH, off := letterLength j.bytes } j.out
      else f (s.setDec d none) { j with out := s.bagRead e j.out }

/-! ### JOB_OPEN (R76 to R80, R152, R336) -/

/-- Payload of a fixed layout of `n` bytes (R49). -/
def fixedPayload (n : Nat) (out : List Byte) : List Byte := out.take n ++ List.replicate (n - out.length) 0

/-- R78. -/
def State.badGrid (s : State) (x : Slot) : Bool :=
  let a := x.across
  let r := x.repeatLines
  a == 0 || decide (64 < a) || r == 0 || (List.range a).any (fun j => decide (x.cellLast j < x.cellFirst j)) ||
  (List.range (a - 1)).any (fun j => decide (x.cellFirst (j + 1) ≤ x.cellLast j)) || decide (s.columns ≤ x.cellLast (a - 1)) ||
  decide (4096 < a * ((x.lead + (s.rows - 1) * s.spacing + 4 + r - 1) / r + 1))

/-- R79, R152, R336. -/
def State.overBudget (s : State) (x : Slot) : Bool :=
  let c := s.columns
  let rate := x.maxRate
  let tile := 64 + 2048 * ceilDiv x.budgetLayers 4
  let hbm := 2 * c + x.budgetStamp + 2 * x.budgetDirect + if x.voidStamp = 0xFFFF then 0 else c
  rate == 0 || decide (450000 < rate) || decide (x.lead < 64) || decide (8192 < x.lead) || x.budgetLayers == 0 || decide (8 < x.budgetLayers) ||
  decide (s.active TILE.LEAD_SIZE * 2 ^ 20 < x.lead * c) || decide (bits (s.active MAIL.BUDGET_TILE) 20 0 * 1000000 < tile * rate) ||
  decide (bits (s.active MAIL.BUDGET_HBM) 20 0 * 1000000 < hbm * rate) ||
  decide (bits (s.active MAIL.BUDGET_DEC) 20 0 * 1000000 < x.budgetDirect * rate) || decide (s.lineCapNow x.doseMode < rate)

/-- JOB_OPEN: the slot becomes STAGED with D all ones, or the job is refused (R65, R78, R79, R131). -/
def State.jobOpen (s : State) (j : DecJob) : State :=
  let n := j.slot
  let x := { s.slotOf n with params := fixedPayload 800 j.out }
  let refuse (code : Nat) : State := (s.error pMAIL code [.f 4 (letterJob j.bytes), .f 4 (letterSeq j.bytes)]).refuseJob n
  if s.badGrid x then refuse E.BAD_CELL_GRID
  else if s.overBudget x then refuse E.BUDGET_EXCEEDED
  else (s.setSlot n fun _ => { x with damage := 2 ^ 48 - 1 }).slotTo n .staged

/-- JOB_OPEN (R78). -/
def execJobOpen (dec : Fin 8) (mem : MemRep) (s : State) : Host.Outcome State Fault Refusal :=
  .next (settle s (s.apply dec kJOB_OPEN mem State.jobOpen))

/-! ### FENCE and COUNTERSIGN_BATCH (R66, R70, R267) -/

/-- FENCE: the supply mark rises; nothing beyond a set end (R66, R70). -/
def State.fence (s : State) (j : DecJob) : State :=
  s.setSlot j.slot fun x => if x.ends.isSome then x else { x with supply := max x.supply (fld j.out 0 6) }

/-- FENCE (R66). -/
def execFence (dec : Fin 8) (mem : MemRep) (s : State) : Host.Outcome State Fault Refusal := .next (settle s (s.apply dec kFENCE mem State.fence))

/-- COUNTERSIGN_BATCH: its countersigns are taken in payload order (R267); the decision edge applies to them as to ring countersigns, those
of a hand-over cycle included (R258). -/
def State.countersignBatch (s : State) (late : Bool) (j : DecJob) : State :=
  (List.range (j.out.length / 16)).foldl (fun s i => s.takeSign ((j.out.drop (16 * i)).take 16) 1 (letterJob j.bytes) late) s

/-- COUNTERSIGN_BATCH (R267). -/
def execCountersignBatch (dec : Fin 8) (late : Bool) (mem : MemRep) (s : State) : Host.Outcome State Fault Refusal :=
  .next (settle s (s.apply dec kCOUNTERSIGN_BATCH mem fun s j => s.countersignBatch late j))

/-! ### STAMP (R114, R119, R495) -/

/-- STAMP: the stamp becomes READY with its check value, or BAD where a write of it was poisoned. -/
def State.stampReady (s : State) (j : DecJob) : State :=
  match stampHead j.bytes with
  | none => s
  | some q =>
    let w := q.stride
    let h := letterRaw j.bytes / w
    let t : Stamp := { num := letterAux j.bytes, st := if j.bad then 3 else 2, w := w, h := h, frames := j.frames,
                       check := crc32c (pitchRows w h j.out) }
    let s := s.setSlot j.slot fun x => { x with stamps := x.stamps ++ [t] }
    if j.bad then s else s.bump ALBUM.EXPANDED 1

/-- STAMP (R119). -/
def execStamp (dec : Fin 8) (s : State) : Host.Outcome State Fault Refusal := .next (settle s (s.apply dec kSTAMP {} State.stampReady))

/-! ### POSTING_TABLE (R123 to R127) -/

/-- Postings in flight of all slots (R125). -/
def State.inFlight (s : State) : Nat := sumNat (s.slots.map (·.postings.length))

/-- The stamp of a number. -/
def Slot.stampOf (x : Slot) (num : Nat) : Option Stamp := x.stamps.find? fun t => t.num == num

/-- Last covered line of a posting (R125). -/
def Posting.lastLine (p : Posting) : Nat := p.line + (p.count - 1) * p.step + p.h - 1

/-- A posting with the height of its stamp, 1 where the stamp is absent (R125). -/
def Slot.sizedPosting (x : Slot) (p : Posting) : Posting :=
  { p with h := match x.stampOf p.stamp with
              | none => 1
              | some t => t.h }

/-- One posting is applied (R123 to R127): it is late where its LINE has been composed (R69, R127), and in flight until composition has passed its
last line (R125). -/
def State.applyPosting (s : State) (n : Nat) (p : Posting) : State :=
  if p.count = 0 then s
  else
    let x := s.slotOf n
    let t := x.stampOf p.stamp
    let flds : List Fld := [.f 4 x.job, .f 2 p.stamp, .f 6 p.line]
    let s := if (t.any fun t => t.st == 2) then s
             else ((s.error pALBUM E.STAMP_UNKNOWN flds).raise pALBUM 3).lowerDamage n p.line E.STAMP_UNKNOWN
    let s := if p.line < x.composed then (s.event pTILE V.LATE_POSTING flds).lowerDamage n p.line V.LATE_POSTING else s
    let p := x.sizedPosting p
    if p.lastLine < x.composed then s else s.setSlot n fun x => { x with postings := x.postings ++ [p] }

/-- POSTING_TABLE: its postings are applied in table order, or none of them where those that would be in flight are too many (R124 to R126). -/
def State.postingTable (s : State) (j : DecJob) : State :=
  let n := j.slot
  let ps := (List.range (j.out.length / 24)).map (postingAt j.out)
  let x := s.slotOf n
  let live := ps.filter fun p => p.count != 0
  if 16384 < s.inFlight + (live.filter fun p => decide (x.composed ≤ (x.sizedPosting p).lastLine)).length then
    let s := (s.error pTILE E.POSTINGS_FULL [.f 4 (letterJob j.bytes), .f 4 (letterSeq j.bytes)]).raise pTILE 4
    match live with
    | [] => s
    | p :: _ => s.lowerDamage n (live.foldl (fun m q => min m q.line) p.line) E.POSTINGS_FULL
  else
    let s := ps.foldl (fun s p => s.applyPosting n p) s
    s.setReg TILE.POSTINGS_PEAK (max (s.reg TILE.POSTINGS_PEAK) s.inFlight)

/-- POSTING_TABLE (R124). -/
def execPostingTable (dec : Fin 8) (mem : MemRep) (s : State) : Host.Outcome State Fault Refusal :=
  .next (settle s (s.apply dec kPOSTING_TABLE mem State.postingTable))

/-! ### DIRECT (R128 to R130) -/

/-- DIRECT: its rows stay in the direct buffer until composition passes the last one. -/
def State.directRows (s : State) (j : DecJob) : State :=
  let o := j.out
  let d : Direct := { layer := letterAux j.bytes, op := fld o 15 1, line := fld o 0 6, column := fld o 6 2, width := fld o 8 4,
                      lines := fld o 12 3, place := j.place }
  if d.width = 0 ∨ d.lines = 0 ∨ d.line + d.lines ≤ (s.slotOf j.slot).composed then s
  else s.setSlot j.slot fun x => { x with directs := x.directs ++ [d] }

/-- DIRECT (R129). -/
def execDirect (dec : Fin 8) (s : State) : Host.Outcome State Fault Refusal := .next (settle s (s.apply dec kDIRECT {} State.directRows))

/-! ### Franks and enclosures (R156 to R162, R176 to R181) -/

def Field.kind (f : Field) : Nat := fld f.defn 0 1
def Field.layer (f : Field) : Nat := fld f.defn 1 1
def Field.op (f : Field) : Nat := fld f.defn 2 1
def Field.format (f : Field) : Nat := if f.kind = 0 then fld f.defn 3 1 else 0
def Field.digits (f : Field) : Nat := if f.kind = 0 then fld f.defn 4 1 else 0
def Field.check (f : Field) : Nat := if f.kind = 0 then fld f.defn 5 1 else 0
def Field.selfConfirm (f : Field) : Bool := bit (fld f.defn 6 1) 0
def Field.required (f : Field) : Bool := f.kind == 1 && bit (fld f.defn 6 1) 1
def Field.along (f : Field) : Bool := bit (fld f.defn 6 1) 2
def Field.glyphSet (f : Field) : Nat := if f.kind = 0 then fld f.defn 7 1 else 0
def Field.x (f : Field) : Nat := fld f.defn 8 2
def Field.y (f : Field) : Nat := fld f.defn 12 4
def Field.mask (f : Field) : Nat := fld f.defn 16 8
def Field.start (f : Field) : Nat := fld f.defn 24 8
def Field.step (f : Field) : Nat := fld f.defn 32 8
/-- M of R163. -/
def Field.modulus (f : Field) : Nat := if fld f.defn 40 8 = 0 then 2 ^ 64 else fld f.defn 40 8
def Field.boxW (f : Field) : Nat := fld f.defn 48 2
def Field.boxH (f : Field) : Nat := fld f.defn 50 2

/-- The field of a number. -/
def Slot.fieldOf (x : Slot) (num : Nat) : Option Field := x.fields.find? fun f => f.num == num

/-- The FRANK_VOID record of a field and cell (R162, R180, R181). -/
def State.frankVoidRec (s : State) (n field idx : Nat) (more : List Fld) : State :=
  s.event pFRANK V.FRANK_VOID ([.f 4 (s.slotOf n).job, .f 1 field, .f 4 idx] ++ more)

/-- The record and the void; in a replay a live one does not act (R602). -/
def State.frankVoid (s : State) (n field idx : Nat) (more : List Fld) : State :=
  let t := s.frankVoidRec n field idx more
  if s.replaying then t.suppress else t.voidCell n idx rFRANK

/-- The FRANK_VOID records of this line time act in the slots of their jobs, on the cells that `p` chooses (R600). -/
def State.fedFrankVoids (s : State) (p : Nat → Nat → Bool) : State :=
  (s.dueOf V.FRANK_VOID).foldl (fun s r =>
    match s.slotOfJob r.job with
    | none => s
    | some n =>
      let idx := fld r.pay 5 4
      if p n idx then (s.frankVoidRec n (fld r.pay 4 1) idx (if fld r.pay 9 8 = 0 then [] else [.f 8 (fld r.pay 9 8)])).voidCell n idx rFRANK
      else s) s

/-- GLYPH_SET: the set is defined (R156, R158). -/
def State.glyphSet (s : State) (j : DecJob) : State :=
  if letterRaw j.bytes = 0 then s
  else s.setSlot j.slot fun x => { x with glyphs := x.glyphs ++ [{ num := letterAux j.bytes, pages := j.frames, len := letterRaw j.bytes }] }

/-- GLYPH_SET (R158). -/
def execGlyphSet (dec : Fin 8) (s : State) : Host.Outcome State Fault Refusal := .next (settle s (s.apply dec kGLYPH_SET {} State.glyphSet))

/-- R162: the cells of a late field's mask in every repeat planned so far are voided. -/
def State.lateField (s : State) (n : Nat) (f : Field) : State :=
  let x := s.slotOf n
  let s := s.bump FRANK.LATE_SOURCES 1
  let hit := x.liveCells.filter fun c => bit f.mask c.pos
  let s := if hit.isEmpty then s else s.raise pFRANK 5
  hit.foldl (fun s c => s.frankVoid n f.num c.idx []) s

/-- Positions of a mask below a count. -/
def popBelow (mask n : Nat) : Nat := ((List.range n).filter fun j => bit mask j).length

/-- FRANK_DEF: the field is defined (R159, R161, R162, R163). -/
def State.frankDef (s : State) (d : Nat) (j : DecJob) : State :=
  let n := j.slot
  let x := s.slotOf n
  let o := fixedPayload 56 j.out
  let num := letterAux j.bytes
  if (x.fieldOf num).isSome then s.mailDrop E.DUPLICATE j.bytes
  else if letterRaw j.bytes ≠ 0 ∧ 2 ^ x.across ≤ fld o 16 8 then s.decRecord d j.bytes { code := E.BAD_CODE, off := 16 }
  else
    let f : Field := { num := num, defn := o, counter := 0 }
    let f := { f with counter := (f.start + f.step * (x.assigned * popBelow f.mask x.across)) % f.modulus }
    let s := s.setSlot n fun x => { x with fields := x.fields ++ [f] }
    if x.assigned = 0 then s else s.lateField n f

/-- FRANK_DEF (R159). -/
def execFrankDef (dec : Fin 8) (mem : MemRep) (s : State) : Host.Outcome State Fault Refusal :=
  .next (settle s (s.apply dec kFRANK_DEF mem fun s j => s.frankDef dec j))

/-- R180: the values of the cell's repeat have been assigned. -/
def Slot.assignedCell (x : Slot) (idx : Nat) : Bool :=
  let t := x.assigned * x.across
  decide ((t + 2 ^ 32 - 1 - idx) % 2 ^ 32 < min t (2 ^ 31))

/-- Position of a cell by its index: indices wrap (R77), and the one meant is that nearest to the cells assigned so far (R10). -/
def Slot.cellPos (x : Slot) (idx : Nat) : Nat :=
  let t := x.assigned * x.across
  let d := (idx + 2 ^ 32 - t % 2 ^ 32) % 2 ^ 32
  (if d < 2 ^ 31 ∨ t + d < 2 ^ 32 then t + d else t + d - 2 ^ 32) % x.across

/-- R177: the letter agrees with the job's definitions. -/
def Slot.enclosureOk (x : Slot) (o : List Byte) : Bool :=
  match x.fieldOf (fld o 0 1) with
  | none => false
  | some f => f.kind == 1 && decide (fld o 2 2 ≤ f.boxW) && decide (fld o 4 2 ≤ f.boxH) && bit f.mask (x.cellPos (fld o 8 4))

/-- ENCLOSURE: the bitmap is bound to its cell, or it is a second one, at odds with the job, or late (R177 to R180). A late one is recorded also
where its cell has its verdict already and is voided no more (DESIGN CHOICE, log 77: R180 does not say). -/
def State.enclosure (s : State) (d : Nat) (j : DecJob) : State :=
  let n := j.slot
  let x := s.slotOf n
  let o := j.out
  let field := fld o 0 1
  let idx := fld o 8 4
  if letterRaw j.bytes = 0 then s
  else if x.seen.contains (field, idx) then s.mailDrop E.DUPLICATE j.bytes
  else if !x.enclosureOk o then s.decRecord d j.bytes { code := E.BAD_CODE, off := 0 }
  else
    let s := s.setSlot n fun x => { x with seen := x.seen ++ [(field, idx)] }
    if x.assignedCell idx then (((s.bump FRANK.LATE_SOURCES 1).raise pFRANK 5).frankVoid n field idx [])
    else s.setSlot n fun x => { x with enclosures := x.enclosures ++
      [{ field := field, cell := idx, w := fld o 2 2, h := fld o 4 2, frames := j.frames, check := letterCheck j.bytes, bad := j.bad }] }

/-- ENCLOSURE (R177). -/
def execEnclosure (dec : Fin 8) (s : State) : Host.Outcome State Fault Refusal :=
  .next (settle s (s.apply dec kENCLOSURE {} fun s j => s.enclosure dec j))

/-! ### Registers of ALBUM and FRANK (R153, R185) -/

/-- State and stamp that LOOKUP_SEL names: 1 while it expands. -/
def State.lookupInfo (s : State) : Nat × Stamp :=
  let sel := s.reg ALBUM.LOOKUP_SEL
  let n := bits sel 17 16
  let num := bits sel 11 0
  match (s.slotOf n).stampOf num with
  | some t => (t.st, t)
  | none =>
    match s.mail.decs.findSome? fun d => d.bind fun j =>
        if j.slot == n && j.makes kSTAMP && letterAux j.bytes == num then some j else none with
    | none => (0, { num := num, st := 0, w := 0, h := 0, frames := [], check := 0 })
    | some j =>
      match stampHead j.bytes with
      | none => (0, { num := num, st := 0, w := 0, h := 0, frames := [], check := 0 })
      | some q => (1, { num := num, st := 1, w := q.stride, h := letterRaw j.bytes / q.stride, frames := j.frames, check := 0 })

/-- What a read of a derived ALBUM register returns. -/
def State.readAlbum (s : State) (a : Nat) : Option Nat :=
  let (st, t) := s.lookupInfo
  if a = ALBUM.FREE_FRAMES then some s.freeFrames.length
  else if a = ALBUM.LOOKUP_INFO then some (st * 2 ^ 30 + t.frames.length)
  else if a = ALBUM.LOOKUP_WIDTH then some t.w
  else if a = ALBUM.LOOKUP_HEIGHT then some t.h
  else if a = ALBUM.LOOKUP_CHECK then some t.check
  else if ALBUM.SLOT_STAMPS 0 ≤ a ∧ a < ALBUM.SLOT_STAMPS 4 then some (s.slotOf ((a - ALBUM.SLOT_STAMPS 0) / 4)).stamps.length
  else if ALBUM.SLOT_FRAMES 0 ≤ a ∧ a < ALBUM.SLOT_FRAMES 4 then
    let n := (a - ALBUM.SLOT_FRAMES 0) / 4
    let x := s.slotOf n
    some (sumNat (x.stamps.map (·.frames.length)) + sumNat (x.enclosures.map (·.frames.length)) +
      sumNat (s.mail.decs.map fun d => match d with
        | some j => if j.slot = n ∧ letterKind j.bytes ≠ kGLYPH_SET then j.frames.length else 0
        | none => 0))
  else none

/-- The field that VIEW_SEL names. -/
def State.viewField (s : State) : Option Field :=
  (s.slotOf (bits (s.reg FRANK.VIEW_SEL) 17 16)).fieldOf (bits (s.reg FRANK.VIEW_SEL) 7 0)

/-- VIEW_INFO (R185); a field that the table of R159 marks for the other FKIND shows 0 (DESIGN CHOICE, log 77: the spec does not say). -/
def Field.info (f : Field) : Nat :=
  2 ^ 31 + f.kind * 2 ^ 30 + (if f.along then 2 ^ 29 else 0) + (if f.required then 2 ^ 28 else 0) + (if f.selfConfirm then 2 ^ 27 else 0) +
  f.layer * 2 ^ 24 + f.digits * 2 ^ 16 + f.op * 2 ^ 12 + f.check * 2 ^ 10 + f.format * 2 ^ 9 + f.glyphSet

/-- What a read of a derived FRANK register returns. -/
def State.readFrank (s : State) (a : Nat) : Option Nat :=
  if a = FRANK.GLYPH_FREE then some (4 * s.freePages.length)
  else if a = FRANK.VIEW_INFO then some ((s.viewField.map (·.info)).getD 0)
  else if a = FRANK.VIEW_VALUE_LO then some ((s.viewField.map fun f => f.counter % 2 ^ 32).getD 0)
  else if a = FRANK.VIEW_VALUE_HI then some ((s.viewField.map fun f => f.counter / 2 ^ 32).getD 0)
  else if FRANK.SLOT_FIELDS 0 ≤ a ∧ a < FRANK.SLOT_FIELDS 4 then some (s.slotOf ((a - FRANK.SLOT_FIELDS 0) / 4)).fields.length
  else if FRANK.SLOT_GLYPH_KIB 0 ≤ a ∧ a < FRANK.SLOT_GLYPH_KIB 4 then
    let n := (a - FRANK.SLOT_GLYPH_KIB 0) / 4
    some (4 * (sumNat ((s.slotOf n).glyphs.map (·.pages.length)) +
      sumNat (s.mail.decs.map fun d => match d with
        | some j => if j.slot = n ∧ letterKind j.bytes = kGLYPH_SET then j.frames.length else 0
        | none => 0)))
  else none

end Sys2Proof.Machine
end

