-- ==== Sys2Proof/Machine/Zones.lean ====
section
/-! DEFINITION. The columns and cells of a zone, and the POWER voids of a zone whose feedback is lost (R225, R226, R436, R445). -/

namespace Sys2Proof.Machine

/-- i and f of R225: x = 64 i + f. -/
def shiftI (x : Int) : Int := x / 64
def shiftF (x : Int) : Nat := (x % 64).toNat

/-- Image columns that reach head columns `[h0, h1]` with a weight (R226), as a range that may be empty. -/
def imageRange (c : Nat) (x : Int) (h0 h1 : Nat) : Int × Int :=
  (max (h0 - shiftI x - if shiftF x = 0 then 0 else 1) 0, min (h1 - shiftI x) (c - 1))

/-- Cell positions that an image range reaches. -/
def Slot.posIn (x : Slot) (g : Int × Int) : List Nat :=
  (List.range x.across).filter fun j => decide (g.1 ≤ g.2) && decide ((x.cellFirst j : Int) ≤ g.2) && decide (g.1 ≤ x.cellLast j)

/-- ZONES of the active SAMPLE_CFG (R436). -/
def State.zones (s : State) : Nat := bits (s.active LOOP.SAMPLE_CFG) 22 16
/-- Zone `z`. -/
def State.zoneOf (s : State) (z : Nat) : Zone := s.loops.zone.getD z {}
/-- Zone `z` changed. -/
def State.setZone (s : State) (z : Nat) (f : Zone → Zone) : State := { s with loops := { s.loops with zone := modAt s.loops.zone z f } }

/-- Cell positions that have a head column of a zone (R226, R445), by the X of row 0's latest frame. -/
def State.zonePos (s : State) (x : Slot) (z : Nat) : List Nat :=
  let c := s.active (LOOP.ZONE_COLS z)
  x.posIn (imageRange s.columns s.place.xNow (bits c 15 0) (bits c 31 16))

/-- The live cells of slot `n` that have a head column of a zone. -/
def State.zoneCells (s : State) (n z : Nat) : List Cell :=
  let x := s.slotOf n
  x.cells.filter fun c => c.live && (s.zonePos x z).contains c.pos

/-- Zones in HOLD or SAFE, from the hand-over edge of F on (R445): in a replay the ones that the records have left there (R450, R600). -/
def State.zonesHeld (s : State) : List Nat :=
  if s.replaying then s.replay.zones
  else (List.range s.zones).filter fun z => ((s.zoneOf z).st == .hold || (s.zoneOf z).st == .safe) && !(s.zoneOf z).early

/-- The hand-over edge of F has come for the zones that have entered HOLD (R445). -/
def State.holdsBegin (s : State) : State :=
  { s with loops := { s.loops with zone := s.loops.zone.map fun q => { q with early := false } } }

/-- R445: while a zone is in HOLD or SAFE, every cell of its columns that is not committed is voided with POWER. -/
def State.powerVoids (s : State) : State :=
  s.zonesHeld.foldl (fun s z =>
    (List.range 4).foldl (fun s n =>
      ((s.zoneCells n z).filter fun c => !c.committed && c.reason != rPOWER).foldl (fun s c => s.voidCell n c.idx rPOWER) s) s) s

/-- R445: the cells of a repeat that are assigned while a zone of their columns is in HOLD or SAFE are voided at their assignment. -/
def State.powerAssigned (s : State) (n r : Nat) : State :=
  s.zonesHeld.foldl (fun s z => ((s.zoneCells n z).filter fun c => c.rep == r && c.reason != rPOWER).foldl (fun s c => s.voidCell n c.idx rPOWER) s) s

end Sys2Proof.Machine
end

