-- ==== Sys2Proof/Machine/Compose.lean ====
section
/-! DEFINITION. Composition: franks, sources, blending, the planner, the tiles and their patrol, the lead ring (R68 to R73, R123, R129,
R133 to R152, R154, R163 to R183, R310, R658). -/

namespace Sys2Proof.Machine

/-! ### Characters (R168 to R170) -/

/-- The digits of a value, most significant first (R168). -/
def valueDigits (base : Nat) : Nat → Nat → List Nat
  | 0, _ => []
  | n + 1, v => valueDigits base n (v / base) ++ [v % base]

/-- What one data digit adds to the sum of R169; `i` counts from the rightmost. -/
def checkTerm (scheme i x : Nat) : Nat :=
  if scheme = 1 then (if i % 2 = 0 then 3 * x else x)
  else if i % 2 = 0 then (if 9 < 2 * x then 2 * x - 9 else 2 * x) else x

/-- check_digit of R169. -/
def checkDigit (ds : List Nat) (scheme : Nat) : Nat := (10 - sumNat (ds.reverse.zipIdx.map fun p => checkTerm scheme p.2 p.1) % 10) % 10

/-- Base of a field's format. -/
def Field.base (f : Field) : Nat := if f.format = 0 then 10 else 36

/-- Character codes of a field's value (R168). -/
def Field.codes (f : Field) (v : Nat) : List Nat :=
  let ds := valueDigits f.base f.digits v
  let ds := if f.format = 0 ∧ f.check ≠ 0 then ds ++ [checkDigit ds f.check] else ds
  ds.map fun d => if d < 10 then 0x30 + d else 0x41 + d - 10

/-! ### Glyphs (R156, R171) -/

/-- A glyph as its entry gives it (R156). -/
structure Glyph where
  code : Nat
  w : Nat
  h : Nat
  advance : Nat
  pixels : Nat
  deriving DecidableEq, Repr

/-- The entries of a set. -/
def State.glyphTable (s : State) (g : GlyphSet) : List Glyph :=
  let n := leNat (s.glyphBytes g 0 2)
  let es := s.glyphBytes g 4 (12 * n)
  (List.range n).map fun i =>
    { code := fld es (12 * i) 1, w := fld es (12 * i + 2) 2, h := fld es (12 * i + 4) 2, advance := fld es (12 * i + 6) 2,
      pixels := fld es (12 * i + 8) 4 }

/-- The glyphs of a field's value, in order; none where the set or a character's glyph is missing (R170). -/
def State.glyphsOf (s : State) (x : Slot) (f : Field) (v : Nat) : Option (GlyphSet × List Glyph) :=
  match x.glyphs.find? fun g => g.num == f.glyphSet with
  | none => none
  | some g =>
    let t := s.glyphTable g
    ((f.codes v).mapM fun c => t.find? fun e => e.code == c).map fun gs => (g, gs)

/-! ### Assignment of a repeat (R163 to R166, R170, R180, R183) -/

/-- A cell position that the assignment voids, with its field and the further fields of its record. -/
structure FrankFail where
  pos : Nat
  field : Nat
  more : List Fld
  deriving DecidableEq, Repr

/-- The assignment as it runs: the state, the seal records of each cell position, and the cells to void. -/
structure Assign where
  st : State
  recs : List (Nat × List Byte) := []
  fails : List FrankFail := []

/-- A seal record joins those of a cell position (R183). -/
def Assign.sealRec (a : Assign) (pos field kind idx v : Nat) : Assign :=
  { a with recs := a.recs ++ [(pos, leBytes 1 field ++ leBytes 1 kind ++ leBytes 2 0 ++ leBytes 4 idx ++ leBytes 8 v)] }

/-- R166: the reload and checkpoint records at a field's first assignment of a repeat. -/
def State.assignRecords (s : State) (n r : Nat) (f : Field) (idx v : Nat) : State :=
  let job := (s.slotOf n).job
  let s := match f.reload with
    | none => s
    | some w => s.event pFRANK V.RELOAD [.f 4 job, .f 1 f.num, .f 8 w, .f 4 idx]
  let every := bits (s.reg FRANK.CHECKPOINT) 15 0
  if every ≠ 0 ∧ r % every = 0 then s.event pFRANK V.CHECKPOINT [.f 4 job, .f 1 f.num, .f 4 idx, .f 8 v] else s

/-- The field of a number changed. -/
def State.setField (s : State) (n num : Nat) (g : Field → Field) : State :=
  s.setSlot n fun x => { x with fields := x.fields.map fun f => if f.num == num then g f else f }

/-- R170: a value of a cell fails a check: the record, the counter and the interrupt. -/
def Assign.failed (a : Assign) (code counter irq : Nat) (flds : List Fld) : Assign :=
  { a with st := ((a.st.error pFRANK code flds).bump counter 1).raise pFRANK irq }

/-- R163, R170: a COUNTER field takes its value for one cell. The glyphs of a value that overflows are those of its low DIGITS digits, and a
value that overflows or misses a glyph draws nothing in its voided cell: it sets no bit of PROV_MASK and counts in no budget (DESIGN CHOICE,
log 77: the spec does not say). -/
def Assign.counter (a : Assign) (n r num pos : Nat) (first : Bool) : Assign :=
  let s := a.st
  let x := s.slotOf n
  match x.fieldOf num with
  | none => a
  | some f =>
    let idx := x.cellIndex r pos
    let fed := if s.replaying then s.recordedReload x.job num idx else none
    let v := fed.getD f.counter
    let f := { f with reload := if fed.isSome then fed else f.reload }
    let s := if first then s.assignRecords n r f idx v else s
    let s := (s.setField n num fun g => { g with counter := (v + f.step) % f.modulus, reload := none }).bump FRANK.ASSIGNED 1
    let a := { a with st := s }
    let a := if f.selfConfirm then a else a.sealRec pos num 0 idx v
    let flds : List Fld := [.f 4 x.job, .f 1 num, .f 4 idx, .f 8 v]
    let big := decide (f.base ^ f.digits ≤ v)
    let miss := (s.glyphsOf x f v).isNone
    let a := if big then a.failed E.FIELD_OVERFLOW FRANK.OVERFLOWS 2 flds else a
    let a := if miss then a.failed E.GLYPH_MISSING FRANK.MISSING_GLYPHS 3 flds else a
    if big || miss then { a with fails := a.fails ++ [{ pos := pos, field := num, more := [.f 8 v] }] }
    else { a with st := s.setSlot n fun x => { x with values := x.values ++ [{ field := num, cell := idx, v := v }] } }

/-- R180, R183: an ENCLOSURE field resolves its binding for one cell; one that is BAD is bound and not drawn (log 77). -/
def Assign.enclose (a : Assign) (n r : Nat) (f : Field) (pos : Nat) : Assign :=
  let x := a.st.slotOf n
  let idx := x.cellIndex r pos
  match x.enclosures.find? fun e => e.field == f.num && e.cell == idx with
  | some e =>
    if e.bad then a
    else
      let a := { a with st := a.st.bump FRANK.ENCLOSURES 1 }
      if f.selfConfirm then a else a.sealRec pos f.num 1 idx e.check
  | none =>
    if f.required then
      { a with st := (a.st.bump FRANK.ABSENT 1).raise pFRANK 4, fails := a.fails ++ [{ pos := pos, field := f.num, more := [] }] }
    else a

/-- One field over the cell positions of its mask (R163). -/
def Assign.field (n r : Nat) (a : Assign) (f : Field) : Assign :=
  let ps := (List.range (a.st.slotOf n).across).filter fun j => bit f.mask j
  ps.foldl (fun a j => if f.kind = 0 then a.counter n r f.num j (ps.head? == some j) else a.enclose n r f j) a

/-- The fields of a job in ascending number. -/
def Slot.sortedFields (x : Slot) : List Field := sortBy Field.num x.fields

/-- The frank seal of a cell position (R183). -/
def Assign.seal? (a : Assign) (pos : Nat) : Option Nat :=
  let rs := a.recs.filter fun r => r.1 == pos
  if rs.isEmpty then none else some (crc32c (rs.flatMap (·.2)))

/-- R265: a repeat that is assigned after the end of its job was set inside it is cut at its assignment. -/
def State.cutAssigned (s : State) (n r : Nat) : State :=
  let x := s.slotOf n
  match x.ends with
  | none => s
  | some e => if e % x.repeatLines = 0 ∨ e / x.repeatLines ≠ r then s else s.cutCells n e

/-- R163 to R183, R243, R254, R445: the values, seals and cells of repeat `r` are assigned, then the voids found at it are made. -/
def State.assignRepeat (s : State) (n r : Nat) : State :=
  let s := s.setSlot n fun x => { x with values := [], assigned := r + 1 }
  let a := (s.slotOf n).sortedFields.foldl (Assign.field n r) ({ st := s } : Assign)
  let x := a.st.slotOf n
  let s := (List.range x.across).foldl (fun s j => s.assignCell n r j (a.seal? j)) a.st
  let s := s.cutAssigned n r
  let s := a.fails.foldl (fun s f => s.frankVoid n f.field (x.cellIndex r f.pos) f.more) s
  let s := if s.replaying then s.fedFrankVoids fun m idx => m == n && (List.range x.across).any fun j => x.cellIndex r j == idx else s
  let s := x.unpaired.foldl (fun s j => s.voidCell n (x.cellIndex r j) rOVERLAP_VOID) s
  s.powerAssigned n r

/-! ### Sources of a line (R123, R129, R151, R171 to R175, R182) -/

/-- Kinds of source. -/
inductive SourceKind where
  | posting | direct | glyph | enclosure
  deriving DecidableEq, Repr

/-- A source clipped to a line: its first column, its levels, the instances of its posting that cross the line, and the cell position of a
provisional one. All instances of a posting cover the same columns, so the last one supplies them (R133). -/
structure Source where
  kind : SourceKind
  layer : Nat
  op : Nat
  first : Nat
  px : List Byte
  count : Nat := 1
  prov : Option Nat := none
  /-- Device memory that its levels are read from. -/
  reads : List (Nat × Nat) := []
  deriving DecidableEq, Repr

/-- A source with the levels of its device memory. -/
def State.sourceAt (s : State) (kind : SourceKind) (layer op first : Nat) (rs : List (Nat × Nat)) : Source :=
  { kind := kind, layer := layer, op := op, first := first, px := s.loadAll rs, reads := rs }

/-- The columns of a box `[a, a + w)` within `[lo, hi)`: first column and how many. -/
def clipCols (a : Int) (w lo hi : Nat) : Nat × Nat :=
  let x0 := max a lo
  let x1 := min (a + w) hi
  if x0 < x1 then (x0.toNat, (x1 - x0).toNat) else (lo, 0)

/-- A posting on line `n` of a head of `c` columns (R123). -/
def State.postingSource (s : State) (x : Slot) (n c : Nat) (p : Posting) : Option Source :=
  match x.stampOf p.stamp with
  | none => none
  | some t =>
    let d := n - p.line
    let (a, w) := clipCols p.column t.w 0 c
    let hi := if p.step = 0 then p.count - 1 else min (d / p.step) (p.count - 1)
    let lo := if d < t.h then 0 else if p.step = 0 then p.count else ceilDiv (d + 1 - t.h) p.step
    if t.st ≠ 2 ∨ n < p.line ∨ w = 0 ∨ hi < lo then none
    else if s.replaying && s.recordedLate x.job p.stamp p.line then none
    else
      let y := d - hi * p.step
      some { s.sourceAt .posting p.layer p.op a (s.framesAt t.frames (y * pitch t.w + ((a : Int) - p.column).toNat) w) with
             count := hi - lo + 1 }

/-- A DIRECT row on line `n` (R129), read from the direct buffer (R130). -/
def State.directSource (s : State) (n c : Nat) (d : Direct) : Option Source :=
  let (a, w) := clipCols d.column d.width 0 c
  if n < d.line ∨ d.line + d.lines ≤ n ∨ w = 0 then none
  else some (s.sourceAt .direct d.layer d.op a (subRegions (placeRegions s.directBase d.place) (16 + (n - d.line) * d.width) w))

/-- The glyphs of a value on line `n`, from pen position `pen` on (R171, R173). -/
def State.glyphSources (s : State) (x : Slot) (f : Field) (g : GlyphSet) (n r j : Nat) : Nat → List Glyph → List Source
  | _, [] => []
  | pen, e :: es =>
    let col := x.cellFirst j + f.x + if f.along then 0 else pen
    let top := r * x.repeatLines + f.y + if f.along then pen else 0
    let (a, w) := clipCols col e.w (x.cellFirst j) (x.cellLast j + 1)
    let rest := s.glyphSources x f g n r j (pen + e.advance) es
    if n < top ∨ top + e.h ≤ n ∨ w = 0 then rest
    else { s.sourceAt .glyph f.layer f.op a (s.glyphAt g (e.pixels + (n - top) * e.w + (a - col)) w) with
           prov := if f.selfConfirm then none else some j } :: rest

/-- An enclosure on line `n` (R172, R173); one that is BAD draws nothing, as a stamp that is BAD does (R495; DESIGN CHOICE, log 77). -/
def State.enclosureSource (s : State) (x : Slot) (f : Field) (n r j : Nat) (e : Enclosure) : Option Source :=
  let col := x.cellFirst j + f.x
  let top := r * x.repeatLines + f.y
  let (a, w) := clipCols col e.w (x.cellFirst j) (x.cellLast j + 1)
  if n < top ∨ top + e.h ≤ n ∨ w = 0 ∨ e.bad = true then none
  else some { s.sourceAt .enclosure f.layer f.op a (s.framesAt e.frames ((n - top) * pitch e.w + (a - col)) w) with
              prov := if f.selfConfirm then none else some j }

/-- What a field draws on line `n` in cell position `j` (R171 to R173). -/
def State.fieldSources (s : State) (x : Slot) (n : Nat) (f : Field) (j : Nat) : List Source :=
  let r := n / x.repeatLines
  let idx := x.cellIndex r j
  if f.kind = 0 then
    match x.values.find? fun v => v.field == f.num && v.cell == idx with
    | none => []
    | some v => match s.glyphsOf x f v.v with
      | none => []
      | some (g, gs) => s.glyphSources x f g n r j 0 gs
  else match x.enclosures.find? fun e => e.field == f.num && e.cell == idx with
    | none => []
    | some e => (s.enclosureSource x f n r j e).toList

/-- The sources of line `n` in the order of R133. -/
def State.sources (s : State) (x : Slot) (n : Nat) : List Source :=
  let c := s.columns
  x.postings.filterMap (s.postingSource x n c) ++ x.directs.filterMap (s.directSource n c) ++
  x.sortedFields.flatMap fun f => ((List.range x.across).filter fun j => bit f.mask j).flatMap (s.fieldSources x n f)

/-! ### Blending (R133 to R135) -/

/-- blend of R134. -/
def blend (op v s : Nat) : Nat :=
  match op with
  | 0 => s
  | 1 => max v s
  | 2 => min v s
  | 3 => min (v + s) 255
  | 4 => (v * s + 127) / 255
  | _ => (v * (255 - s) + 127) / 255

/-- A source covers those before it in its layer (R133). -/
def paint (ov : List (Option (Nat × Byte))) (s : Source) : List (Option (Nat × Byte)) :=
  ov.take s.first ++ s.px.map (fun b => some (s.op, b)) ++ ov.drop (s.first + s.px.length)

/-- One layer over the levels below it. -/
def blendLayer (v : List Byte) (srcs : List Source) : List Byte :=
  if srcs.isEmpty then v
  else List.zipWith (fun b o => match o with
    | none => b
    | some (op, l) => BitVec.ofNat 8 (blend op b.toNat l.toNat)) v (srcs.foldl paint (List.replicate v.length none))

/-- compose_pixel of R134 over `c` columns. -/
def composeLevels (c : Nat) (srcs : List Source) : List Byte :=
  (List.range 8).foldl (fun v l => blendLayer v (srcs.filter fun s => s.layer == l)) (List.replicate c 0)

/-! ### The line budget (R151, R175) -/

/-- Album bytes of `n` columns from column `a`, over the tile slots that they touch (R151). -/
def stampBytes (a n : Nat) : Nat :=
  if n = 0 then 0
  else sumNat ((List.range ((a + n - 1) / 2048 - a / 2048 + 1)).map fun i =>
    let k := a / 2048 + i
    64 * (ceilDiv (min (a + n) (2048 * (k + 1)) - max a (2048 * k)) 64 + 1))

/-- The mask of the budgets that a line's sources exceed. -/
def budgetMask (x : Slot) (srcs : List Source) : Nat :=
  let layers := ((List.range 8).filter fun l => srcs.any fun s => s.layer == l).length
  let total (p : Source → Bool) (f : Source → Nat) : Nat := sumNat ((srcs.filter p).map f)
  let stamp := total (fun s => s.kind == .posting || s.kind == .enclosure) fun s => s.count * stampBytes s.first s.px.length
  let direct := total (fun s => s.kind == .direct) fun s => 64 * ceilDiv s.px.length 64
  let inst := total (fun s => s.kind == .posting) (·.count)
  let glyph := total (fun s => s.kind == .glyph) (·.px.length)
  (if x.budgetLayers < layers then 1 else 0) + (if x.budgetStamp < stamp then 2 else 0) + (if x.budgetDirect < direct then 4 else 0) +
  (if 2048 < inst then 8 else 0) + if 32768 < glyph then 16 else 0

/-! ### The planner (R66, R72, R73, R97, R131, R150, R310, R658) -/

/-- A faulted DIRECT letter carries the line (R97). -/
def Slot.carried (x : Slot) (n : Nat) : Bool := x.starved.any fun r => decide (r.first ≤ n) && decide (n < r.first + r.count)

/-- The causes of R658 that do not look at the sources of line `n`: damage, supply, and WEB.RATE at the line event of the planner's line time
(R310). -/
def State.lineCause (s : State) (x : Slot) (n : Nat) : Nat :=
  if x.damage ≤ n then 1
  else if x.supply ≤ n || x.carried n then 2
  else if x.maxRate < s.comp.rate then 3
  else 0

/-- The budget cause of R658, with the mask of R151. -/
def budgetCause (x : Slot) (srcs : List Source) : Nat × Nat :=
  let m := budgetMask x srcs
  if m = 0 then (0, 0) else (4, m)

/-- Bits of a list of cell positions. -/
def posMask (l : List Nat) : Nat := l.foldl (fun m j => m ||| 2 ^ j) 0

/-- R518: an uncorrectable read of the line in work. What a replay feeds is recorded, and marks no word of the memory (R600). -/
def State.eccLine (s : State) (m a : Nat) : State := if s.replaying then s.eccRecord m a else s.eccUncorrectable m a

/-- R495, R518: reads of the planned line that failed are recorded with its job and line. -/
def State.planReads (s : State) (env : LineEnv) (job line : Nat) : State :=
  let s := env.composePoison.foldl (fun s a => s.poisoned .composition a false [.f 4 job, .f 6 line]) s
  env.glyphUncorr.foldl (fun s a => s.eccLine mFRANK a) s

/-- R150 step 1: line `t - take` of slot `n` is planned for line time `t`. Its sources are those of the letters applied until it is composed
(R149), which is when they are found (log 29). -/
def State.planLine (s : State) (n take t : Nat) (env : LineEnv) : State :=
  let line := t - take
  let x := s.slotOf n
  let r := line / x.repeatLines
  let s := if x.assigned ≤ r then s.assignRepeat n r else s
  let x := s.slotOf n
  let cause := s.lineCause x line
  let failed := cause = 0 ∧ (env.composePoison ≠ [] ∨ env.glyphUncorr ≠ [])
  let s := if failed then s.planReads env x.job line else s
  let cause := if failed then 5 else cause
  let rcd : LineRec := { job := x.job, line := line, st := 1, slot := n, base := (r * x.across) % 2 ^ 32 }
  let s := s.setSlot n fun x => { x with planned := line + 1 }
  { s with comp := { s.comp with lead := some x.lead, plan := some { lt := t + x.lead, rcd := rcd, cause := cause } } }

/-- The slot whose job is next in job-number order, among those whose line 0 composition has not taken (R72, R74, R75). -/
def State.successor (s : State) (after : Option Nat) : Option Nat :=
  let cands := (List.range 4).filter fun n =>
    let x := s.slotOf n
    (x.st == .gathering || x.st == .staged) && x.take.isNone && (match after with
      | none => true
      | some j => precedes j x.job)
  cands.foldl (fun b n => match b with
    | none => some n
    | some m => if precedes (s.slotOf n).job (s.slotOf m).job then some n else b) none

/-- Composition is to take line 0 of slot `n` in line time `t`. -/
def State.takeJob (s : State) (n t : Nat) : State :=
  let s := s.setSlot n fun x => { x with take := some t }
  { s with comp := { s.comp with last := some (s.slotOf n).job, on := some n } }

/-- R71 to R73: a job whose frontier has reached its end is followed by its successor in line time `t`, or by idle lines. -/
def State.follow : Nat → State → Nat → State
  | 0, s, _ => s
  | fuel + 1, s, t =>
    match s.comp.on with
    | none => s
    | some n =>
      let x := s.slotOf n
      let idle : State := { s with comp := { s.comp with on := none } }
      if !x.occupied || x.take.isNone || s.comp.last != some x.job then idle
      else if (x.ends.map fun e => decide (e ≤ x.planned)) = some true then
        match s.successor (some x.job) with
        | none => idle
        | some m =>
          if (s.slotOf m).st == .staged && (s.slotOf m).lead == x.lead then State.follow fuel (s.takeJob m t) t else idle
      else s

/-- The job whose line 0 a replay takes in line time `t` after the end of the one before (R600); where none is recorded, idle lines. -/
def State.followRecorded (s : State) (t : Nat) : State :=
  match s.comp.on with
  | none => s
  | some n =>
    let x := s.slotOf n
    let idle : State := { s with comp := { s.comp with on := none } }
    if !x.occupied || x.take.isNone || s.comp.last != some x.job then idle
    else if (x.ends.map fun e => decide (e ≤ x.planned)) = some true then
      match s.recordedStart t with
      | none => idle
      | some m => if (s.slotOf m).st == .staged && (s.slotOf m).take.isNone then s.takeJob m t else idle
    else s

/-- An idle line planned for line time `t`, once some LEAD has been in use (R73, R146). -/
def State.planIdle (s : State) (t : Nat) : State :=
  match s.comp.lead with
  | none => s
  | some l => { s with comp := { s.comp with plan := some { lt := t + l, rcd := {} } } }

/-- The planner plans for line time `t` (R150 step 1). -/
def State.planFor (s : State) (t : Nat) (env : LineEnv) : State :=
  if !s.enabled pTILE then s
  else
    let s := if s.replaying then s.followRecorded t else State.follow 5 s t
    match s.comp.on with
    | none => s.planIdle t
    | some n => match (s.slotOf n).take with
      | none => s.planIdle t
      | some t0 => s.planLine n t0 t env

/-- R69, R75: a planned line at or past the end of its job, or of a job that is gone, is withdrawn; its values and cells stay assigned
(R164). -/
def State.checkPlan (s : State) : State :=
  match s.comp.plan with
  | none => s
  | some p =>
    let x := s.slotOf p.rcd.slot
    let drop : State := { s with comp := { s.comp with plan := none } }
    if p.rcd.st = 0 then s
    else if !x.occupied || x.job != p.rcd.job then drop
    else if (x.ends.map fun e => decide (e ≤ p.rcd.line)) = some true then drop.setSlot p.rcd.slot fun x => { x with planned := p.rcd.line }
    else s

/-! ### JOB_CLOSE (R69) -/

/-- A planned line that is at or past its job's end is withdrawn, and the planner picks the line of the coming line time anew (R69, R150
step 1). -/
def State.replanNext (s : State) : State :=
  let t := s.checkPlan
  if s.comp.plan.isSome && t.comp.plan.isNone then t.planFor (s.lineTime + 1) {} else s

/-- JOB_CLOSE: the first one of a job sets its end (R69). -/
def State.jobClose (s : State) (j : DecJob) : State :=
  if (s.slotOf j.slot).ends.isSome then s else (s.setEnd j.slot (fld j.out 0 6)).replanNext

/-- JOB_CLOSE (R69). -/
def execJobClose (dec : Fin 8) (mem : MemRep) (s : State) : Host.Outcome State Fault Refusal :=
  .next (settle s (s.apply dec kJOB_CLOSE mem State.jobClose))

/-! ### The tiles (R136 to R143) -/

/-- Slots in use, and the physical tile of a slot by the active MAP (R136). -/
def State.tileSlots (s : State) : Nat := s.columns / 2048
def State.tileOf (s : State) (k : Nat) : Nat := bits (s.active (TILE.MAP k)) 5 0
/-- Physical tiles that are ACTIVE. -/
def State.activeTiles (s : State) : List Nat := (List.range s.tileSlots).map s.tileOf
/-- Patrol tiles (R138). -/
def State.patrols (s : State) : List Nat :=
  if bit (s.reg (CTRL pTILE)) 1 then []
  else
    let act := s.activeTiles
    ((List.range 34).filter fun p => !act.contains p && !s.comp.failed.contains p).take 2

/-- R143: composition begins to run unchecked, or stops doing so. -/
def State.patrolSync (s : State) : State :=
  let un := s.enabled pTILE && s.patrols.isEmpty
  let was := s.comp.unchecked
  let s : State := { s with comp := { s.comp with unchecked := un } }
  if un && !was then s.raise pTILE 3 else s

/-- What physical tile `p` makes of the 2,048 levels of a slot (R139). -/
def tileOut (errs : List (Nat × Nat × Byte)) (p : Nat) (seg : List Byte) : List Byte :=
  (errs.filter fun e => e.1 == p).foldl (fun g e => modAt g e.2.1 fun b => b ^^^ e.2.2) seg

/-- The levels of slot `k`. -/
def slotLevels (levels : List Byte) (k : Nat) : List Byte := (levels.drop (2048 * k)).take 2048

/-- The line as the active tiles make it. -/
def State.tileLine (s : State) (errs : List (Nat × Nat × Byte)) (levels : List Byte) : List Byte :=
  if errs.isEmpty then levels else (List.range s.tileSlots).flatMap fun k => tileOut errs (s.tileOf k) (slotLevels levels k)

/-- A failed comparison of a physical tile (R154 TSTATE). -/
def State.mismatchOf (s : State) (p : Nat) : State :=
  { s with comp := { s.comp with mismatches := keySet s.comp.mismatches p (min ((keyGet s.comp.mismatches p).getD 0 + 1) 0xFFFF) } }

/-- One patrol comparison of tiles `p` and the active tile of slot `k` (R139). -/
def State.compareCount (s : State) (p k : Nat) (same : Bool) : State :=
  let s := s.bump TILE.PATROL_CHECKS 1
  if same then s else ((s.bump TILE.PATROL_MISMATCHES 1).mismatchOf p).mismatchOf (s.tileOf k)

/-- Slot `k` has passed a comparison in the line of number `num` (R141). -/
def State.passedAt (s : State) (k num : Nat) : State := { s with comp := { s.comp with since := keySet s.comp.since k (num + 1) } }

/-- R141: the cells of a line whose columns overlap those of tile slot `k` are voided on it. -/
def State.voidTileLine (s : State) (k : Nat) (lt : Nat) : State :=
  match keyGet s.comp.recs lt with
  | none => s
  | some r =>
    let x := s.slotOf r.slot
    if r.st = 0 ∨ x.job ≠ r.job ∨ !x.occupied then s
    else
      let js := (List.range x.across).filter fun j => decide (x.cellFirst j ≤ 2048 * k + 2047) && decide (2048 * k ≤ x.cellLast j)
      let s : State := if r.taken then s else
        { s with comp := { s.comp with recs := keySet s.comp.recs lt { r with void := r.void ||| posMask js } } }
      js.foldl (fun s j => s.voidCell r.slot (x.cellIndex (r.line / x.repeatLines) j) rTILE) s

/-- Code of the record of a tile verdict (R149): R580 gives it none (log 21). -/
def tileVerdictCode : Nat := evCode pTILE Config.tileVerdictEvent.toNat

/-- R149: the record of a verdict holds the slot, how many lines it voids and the first of them. -/
def State.verdictRecord (s : State) (k n lt : Nat) : State := s.event pTILE tileVerdictCode ([.f 1 k, .f 2 n] ++ if n = 0 then [] else [.lt lt])

/-- R141, R149: a verdict voids `n` lines of slot `k` from line time `lt` on. -/
def State.tileVerdict (s : State) (k n lt : Nat) : State :=
  let s := s.verdictRecord k n lt
  (List.range n).foldl (fun s i => s.voidTileLine k (lt + i)) s

/-- The verdict on every line whose number `p` chooses; lines composed one after another have line times one after another (R144). In a replay
a verdict made live does not act (R602). -/
def State.voidTileLines (s : State) (k : Nat) (p : Nat → Bool) : State :=
  let lts := (s.comp.recs.filter fun r => p r.2.num).map (·.1)
  let lo := lts.foldl min (lts.headD 0)
  let n := if lts.isEmpty then 0 else lts.foldl max 0 + 1 - lo
  if s.replaying then (s.verdictRecord k n lo).suppress else s.tileVerdict k n lo

/-- The tile verdicts recorded for this line time act once its line has been composed, as they did (R149, R600). -/
def State.fedTileVerdicts (s : State) : State :=
  if s.replaying then (s.dueOf tileVerdictCode).foldl (fun s r => s.tileVerdict (fld r.pay 0 1) (fld r.pay 1 2) (fld r.pay 3 6)) s
  else s

/-- R142: a tile judged FAILED for slot `k` in the line `r`; an active one is replaced at the next hand-over, which in a replay is recorded and does
not act (R602). -/
def State.tileFailed (s : State) (p k : Nat) (active : Bool) (line : Nat) : State :=
  let s : State := { s with comp := { s.comp with failed := s.comp.failed ++ [p] } }
  let s := (s.error pTILE E.TILE_FAULT [.f 1 p, .f 1 k, .f 6 line]).raise pTILE 2
  if !active then s.patrolSync
  else match s.patrols with
    | [] => s.patrolSync
    | q :: _ =>
      if s.replaying then (s.event pTILE V.TILE_MAP [.f 1 k, .f 1 q, .lt (s.lineTime + 1)]).suppress
      else { s with comp := { s.comp with swaps := s.comp.swaps ++ [{ slot := k, phys := q, lt := s.lineTime + 1 }] } }

/-- R140: the vote on slot `v.slot` in the line of number `num`, which is line `line` of its job: the TILE_FAULT record of R142 carries that line,
and a vote that finds no patrol tile left fails no tile and voids the line of the mismatch (DESIGN CHOICE, log 77: the spec does not say which
line, and its table begins with one patrol tile). -/
def State.vote (s : State) (v : Vote) (errs : List (Nat × Nat × Byte)) (levels : List Byte) (num line : Nat) : State :=
  let k := v.slot
  let seg := slotLevels levels k
  let act := s.tileOf k
  let a := tileOut errs act seg
  let ps := s.patrols
  let s := ps.foldl (fun s p => s.compareCount p k (tileOut errs p seg == a)) s
  let activeFails (s : State) : State :=
    let from0 := (keyGet s.comp.since k).getD 0
    (s.voidTileLines k fun q => decide (from0 ≤ q) && decide (q ≤ num)).tileFailed act k true line
  match ps with
  | [] => s.voidTileLines k (· == v.num)
  | [p] => if tileOut errs p seg = a then (s.passedAt k num).voidTileLines k (· == v.num) else activeFails s
  | p :: q :: _ =>
    let x := tileOut errs p seg
    let y := tileOut errs q seg
    if x = a ∧ y = a then (s.passedAt k num).voidTileLines k (· == v.num)
    else if y = a then (s.passedAt k num).tileFailed p k false line
    else if x = a then (s.passedAt k num).tileFailed q k false line
    else activeFails s

/-- R139: the patrol comparisons of a line time without a vote. -/
def State.patrol (s : State) (errs : List (Nat × Nat × Byte)) (levels : List Byte) (num : Nat) : State :=
  let n := s.tileSlots
  let ks := [num % n, (num + n / 2) % n]
  (s.patrols.zip ks).foldl (fun s pk =>
    let seg := slotLevels levels pk.2
    let same := tileOut errs pk.1 seg == tileOut errs (s.tileOf pk.2) seg
    let s := s.compareCount pk.1 pk.2 same
    if same then s.passedAt pk.2 num else { s with comp := { s.comp with votes := s.comp.votes ++ [{ slot := pk.2, num := num }] } }) s

/-- R140: the comparisons of a composed line, or the vote that waits. -/
def State.tileChecks (s : State) (errs : List (Nat × Nat × Byte)) (levels : List Byte) (num line : Nat) : State :=
  if s.tileSlots = 0 then s
  else match s.comp.votes with
    | [] => s.patrol errs levels num
    | v :: vs => ({ s with comp := { s.comp with votes := vs } } : State).vote v errs levels num line

/-- A slot has its lines composed by another tile from now on. -/
def State.tileFrom (s : State) (k : Nat) : State := { s with comp := { s.comp with since := keySet s.comp.since k s.comp.count } }

/-- Slots whose tile a hand-over of the map changed; `old` names the tiles before. -/
def State.mapTaken (s : State) (old : List Nat) : State :=
  ((List.range s.tileSlots).filter fun k => s.tileOf k != old.getD k 0).foldl State.tileFrom s

/-- R142: both copies of MAP take the number of a tile, with the record of the change (R149). -/
def State.tileMapped (s : State) (w : TileSwap) : State :=
  let s := (s.setReg (TILE.MAP w.slot) w.phys).setActive (TILE.MAP w.slot) w.phys
  ((s.tileFrom w.slot).event pTILE V.TILE_MAP [.f 1 w.slot, .f 1 w.phys, .lt s.lineTime]).patrolSync

/-- R142: a takeover hands over. -/
def State.tileSwap (s : State) (w : TileSwap) : State := (s.tileMapped w).bump TILE.TAKEOVERS 1

/-- Takeovers that hand over at this edge. -/
def State.tileSwaps (s : State) : State :=
  let due := s.comp.swaps.filter fun w => decide (w.lt ≤ s.lineTime)
  due.foldl State.tileSwap { s with comp := { s.comp with swaps := s.comp.swaps.filter fun w => !decide (w.lt ≤ s.lineTime) } }

/-! ### Composing a line (R68, R144 to R151, R658) -/

/-- R658: the tally, counters and interrupt of a starved line. R310 names no key field, so an overspeed run goes on over a change of job (R586). -/
def State.starvedLine (s : State) (job line cause mask : Nat) : State :=
  let s := s.bump MAIL.STARVED_LINES 1
  if cause = 2 then s.report pMAIL V.STARVED job 1 [.f 4 job] [] none (some 6) true
  else if cause = 3 then (s.bump WEB.OVERSPEED_LINES 1).report pWEB V.OVERSPEED 0 1 [.f 4 job] [] none (some 5) true
  else if cause = 4 then
    (s.bump TILE.OVER_BUDGET_LINES 1).report pTILE V.OVER_BUDGET (job * 256 + mask) 1 [.f 4 job, .f 6 line, .f 1 mask] [] none (some 5) true
  else s

/-- Cell positions of a slot that are void on the lines to come of a repeat (R261). -/
def Slot.maskedAt (x : Slot) (r : Nat) : Nat :=
  posMask ((List.range x.across).filter fun j => (x.liveCell (x.cellIndex r j)).any (·.masked))

/-- R125, R130, R178: what composition passes with line `n` of a slot goes. -/
def Slot.passLine (x : Slot) (n : Nat) : Slot :=
  let old := (n + 1) % x.repeatLines == 0
  let r := n / x.repeatLines
  { x with
    composed := n + 1
    postings := x.postings.filter fun p => decide (n < p.lastLine)
    directs := x.directs.filter fun d => decide (n + 1 < d.line + d.lines)
    starved := x.starved.filter fun g => decide (n + 1 < g.first + g.count)
    enclosures := if old then x.enclosures.filter fun e =>
        !((List.range x.across).any fun j => x.cellIndex r j == e.cell) else x.enclosures }

/-- Device address of a line in the lead ring (R144). -/
def State.leadAddr (s : State) (lt : Nat) : Nat := s.active64 TILE.LEAD_LO TILE.LEAD_HI + lt % max 1 (s.comp.lead.getD 1) * s.columns

/-- Bytes written to the lead ring (R144, R487): while the controller serves no request they wait for it (R500, R505, R508). -/
def State.leadStore (s : State) (a : Nat) (bs : List Byte) : State :=
  if s.hbm.waiting.isEmpty && s.hbmServes a bs.length then (s.touch [(a, bs.length)]).storeDev mDMA a bs
  else { s with hbm := { s.hbm with waiting := s.hbm.waiting ++ [(a, .write bs, {})] } }

/-- R495: a poisoned lead ring write makes the record of its line VOID; what it leaves in its unit the spec does not say (log 3). -/
def State.leadPoisoned (s : State) (lt : Nat) (a : Nat) : State :=
  match keyGet s.comp.recs lt with
  | none => s
  | some r =>
    let s := s.poisoned .composition a true [.f 4 r.job, .f 6 r.line]
    if r.st = 0 then s
    else { s with comp := { s.comp with recs := keySet s.comp.recs lt { r with st := 3, void := (s.slotOf r.slot).allMask } } }

/-- The composed line goes to its lead ring slot (R144, R487). -/
def State.leadWrite (s : State) (lt : Nat) (levels : List Byte) (poison : List Nat) : State :=
  if s.comp.lead.isNone then s
  else
    let (bs, s) := s.undefined (s.leadAddr lt) levels (if s.replaying then [] else poison.map fun a => (a / 256 * 256, 256))
    poison.foldl (fun s a => s.leadPoisoned lt a) (s.leadStore (s.leadAddr lt) bs)

/-- The cause of R658 of a planned line as it is composed, with the mask of R151: D is judged again, and the budgets with the sources found. -/
def State.ownCause (s : State) (p : Plan) (srcs : List Source) : Nat × Nat :=
  let x := s.slotOf p.rcd.slot
  if p.rcd.st = 0 then (0, 0)
  else if x.damage ≤ p.rcd.line then (1, 0)
  else if p.cause = 0 then budgetCause x srcs
  else (p.cause, 0)

/-- The cause that a planned line has: in a replay the causes other than damage are the recorded ones (R600). -/
def State.finalCause (s : State) (p : Plan) (own : Nat × Nat) : Nat × Nat :=
  if p.rcd.st = 0 || own.1 = 1 || !s.replaying then own
  else
    let c := s.recordedCause p.rcd.job s.lineTime
    if c.1 = 0 ∧ own.1 = 5 then (5, 0) else c

/-- The record of a planned line as it is composed for a cause (R147, R148): the void positions are those of now. -/
def State.finalRec (s : State) (p : Plan) (cause : Nat) (srcs : List Source) : LineRec :=
  let x := s.slotOf p.rcd.slot
  let r := { p.rcd with num := s.comp.count }
  if p.rcd.st = 0 then r
  else if cause = 0 then
    let prov := posMask (srcs.filterMap (·.prov))
    { r with st := if prov = 0 then 1 else 2, prov := prov, void := x.maskedAt (r.line / x.repeatLines) }
  else { r with st := 3, void := x.allMask, cause := if cause = 1 then rDAMAGE else rSTARVED }

/-- R602: a cause found live in a replay, which the records do not have, is written and does not act. -/
def State.suppressedCause (s : State) (p : Plan) (own : Nat × Nat) (cause : Nat) : State :=
  if s.replaying && decide (2 ≤ own.1) && decide (own.1 ≤ 4) && cause != own.1 && cause != 1 then
    let code := if own.1 = 2 then V.STARVED else if own.1 = 3 then V.OVERSPEED else V.OVER_BUDGET
    let pg := if own.1 = 2 then pMAIL else if own.1 = 3 then pWEB else pTILE
    (s.event pg code (if own.1 = 4 then [.f 4 p.rcd.job, .f 6 p.rcd.line, .f 1 own.2] else [.f 4 p.rcd.job])).suppress
  else s

/-- R518: words of the glyph rows of a line that show a double-bit error: scratch addresses. -/
def State.badGlyphs (s : State) (srcs : List Source) : List Nat :=
  ((srcs.filter fun q => q.kind == .glyph).flatMap fun q => q.reads.flatMap fun r => s.badAt r.1 r.2).dedup

/-- A line of no other cause whose glyph rows hold such words is composed as a starved line (R518); in a replay what is found live does not act
(R602). -/
def State.glyphCause (s : State) (own : Nat × Nat) (srcs : List Source) : (Nat × Nat) × State :=
  let bad := if own.1 = 0 then s.badGlyphs srcs else []
  if bad.isEmpty then (own, s)
  else if s.replaying then (own, bad.foldl (fun s a => (s.eccRecord mFRANK a).suppress) s)
  else ((5, 0), bad.foldl (fun s a => s.eccUncorrectable mFRANK a) s)

/-- The levels of a line as the tiles' input buffers have them (R68, R134, R150). Reads that the controller does not serve bring nothing in
their line time, and the spec does not say what is composed then: the levels are free (log 74). -/
def State.lineLevels (s : State) (r : LineRec) (srcs : List Source) : List Byte × State :=
  let rs := srcs.flatMap (·.reads)
  if r.st = 3 then (List.replicate s.columns 0, s)
  else if s.served rs then (composeLevels s.columns srcs, s.touch rs)
  else s.freshBytes s.columns

/-- Steps 3 to 6 of R150: the tiles compose the line planned for this line time, from the letters applied before it (R149). -/
def State.composeLine (s : State) (env : LineEnv) : State :=
  match s.comp.plan with
  | none => s
  | some p =>
    if !s.enabled pTILE then { s with comp := { s.comp with plan := none } }
    else
      let srcs := if p.rcd.st = 0 then [] else s.sources (s.slotOf p.rcd.slot) p.rcd.line
      let (own, s) := s.glyphCause (s.ownCause p srcs) srcs
      let (cause, mask) := s.finalCause p own
      let r := s.finalRec p cause srcs
      let s := s.suppressedCause p own cause
      let (levels, s) := s.lineLevels r srcs
      let s : State := { s with comp := { s.comp with plan := none, count := s.comp.count + 1, recs := keySet s.comp.recs p.lt r } }
      let s := (((s.bump TILE.LINES 1).setReg TILE.COMPOSE_JOB r.job).setReg TILE.COMPOSE_LINE_LO (r.line % 2 ^ 32)).setReg
        TILE.COMPOSE_LINE_HI (r.line / 2 ^ 32)
      let s := if r.st = 0 then s.bump TILE.IDLE_LINES 1
        else
          let s := s.setSlot r.slot fun x => x.passLine r.line
          if cause = 0 then s
          else (s.starvedLine r.job r.line cause mask).voidLineCells r.slot r.line (s.slotOf r.slot).allMask r.cause
      let s := s.leadWrite p.lt (s.tileLine env.tileErr levels) env.leadWritePoison
      s.tileChecks env.tileErr levels r.num r.line

/-- R146: idle lines due at or after line 0 of a job that GO starts are discarded. -/
def State.discardIdle (s : State) (start : Nat) : State :=
  { s with comp := { s.comp with plan := none, recs := s.comp.recs.filter fun r => !(r.2.st == 0 && decide (start ≤ r.1) && !r.2.taken) } }

/-! ### Registers (R154) -/

/-- ROLE of a physical tile (R136, R138). -/
def State.tileRole (s : State) (p : Nat) : Nat :=
  if s.comp.failed.contains p then 3 else if s.activeTiles.contains p then 1 else if s.patrols.contains p then 2 else 0

/-- What a read of a derived TILE register returns. PATROLS counts patrol tiles in service, and while CTRL.EN is 0 none is. SLOT of a tile that
is not ACTIVE is its reset value, which for 32 and 33 is 0 (DESIGN CHOICE, log 77: the spec gives neither). -/
def State.readTile (s : State) (a : Nat) : Option Nat :=
  if a = TILE.POSTINGS then some s.inFlight
  else if a = TILE.POSTINGS_PEAK then some (max (s.reg a) s.inFlight)
  else if a = STATUS pTILE then 
    some (s.reg a + (if s.enabled pTILE then s.patrols.length * 256 else 0) + if s.enabled pTILE && s.patrols.isEmpty then 16 else 0)
  else if TILE.DAMAGE_LO 0 ≤ a ∧ a < TILE.DAMAGE_LO 4 then
    let d := (s.slotOf ((a - TILE.DAMAGE_LO 0) / 8)).damage
    some (if (a - TILE.DAMAGE_LO 0) % 8 = 0 then d % 2 ^ 32 else d / 2 ^ 32)
  else if TILE.TSTATE 0 ≤ a ∧ a < TILE.TSTATE 34 then
    let p := (a - TILE.TSTATE 0) / 4
    let slot := ((List.range s.tileSlots).find? fun k => s.tileOf k == p).getD (if p < 32 then p else 0)
    some (s.tileRole p * 2 ^ 30 + slot * 2 ^ 16 + (keyGet s.comp.mismatches p).getD 0)
  else none

end Sys2Proof.Machine
end

