-- ==== Sys2Proof/Machine/Place.lean ====
section
/-! DEFINITION. Placement: the line shift, the web weave, row shifts, overlap ramps, and cells shared with a peer (R221 to R250). -/

namespace Sys2Proof.Machine

/-! ### Line shift (R223 to R226) -/

/-- The levels moved by `i` columns: place c holds lvl_at(c - i), 0 outside the line (R225). -/
def moveLevels (lvl : List Byte) (i : Int) : List Byte :=
  if 0 ≤ i then (List.replicate (min i.toNat lvl.length) 0 ++ lvl).take lvl.length
  else lvl.drop (-i).toNat ++ List.replicate (min (-i).toNat lvl.length) 0

/-- place_level of R225 for every head column. -/
def placeLine (lvl : List Byte) (x : Int) : List Nat :=
  let f := shiftF x
  List.zipWith (fun a b => (rneDiv ((64 - f) * a.toNat + f * b.toNat) 64).toNat) (moveLevels lvl (shiftI x)) (moveLevels lvl (shiftI x + 1))

/-! ### Row shift (R232 to R235) -/

/-- g of a row, 0 while PLACE.CTRL.EN is 0 (R232, R249). -/
def State.rowShift (s : State) (k : Nat) : Int := if s.enabled pPLACE then sInt 7 (s.active (PLACE.ROW_SHIFT k)) else 0

/-- d of R232. -/
def shiftDir (g : Int) : Int := if 0 < g then 1 else -1

/-- Head columns that deliver to beams `[b0, b1]` of a row with shift `g` (R226, R234). -/
def headRange (c : Nat) (g : Int) (b0 b1 : Nat) : Nat × Nat :=
  (if 0 < g then b0 - 1 else b0, if g < 0 then min (b1 + 1) (c - 1) else b1)

/-! ### Overlap ramps (R238 to R240) -/

/-- WIDTH of a side's overlap, and its share lead (R249). -/
def State.ovlWidth (s : State) (side : Nat) : Nat := bits (s.active (PLACE.OVL_CFG side)) 9 0
def State.shareLead (s : State) (side : Nat) : Nat := bits (s.active (PLACE.OVL_CFG side)) 21 16

/-- RAMP[i] of R240. -/
def State.rampOf (s : State) (i : Nat) : Nat :=
  let w := s.active (PLACE.RAMP (i / 2))
  if i % 2 = 0 then bits w 8 0 else bits w 24 16

/-- ramp_t of R239. -/
def State.rampT (s : State) (t j w : Nat) (primary : Bool) : Nat :=
  let p := (rneDiv (t * s.rampOf (j * 512 / w)) 256).toNat
  if primary then p else t - p

/-- The dose of head column `x`, ramped where the column lies in an overlap (R238, R239). -/
def State.rampAt (s : State) (c x t : Nat) : Nat :=
  if !s.enabled pPLACE then t
  else
    let w := s.ovlWidth 0
    let e := s.ovlWidth 1
    if c - e ≤ x ∧ 0 < e then s.rampT t (x - (c - e)) e true
    else if x < w then s.rampT t x w false
    else t

/-! ### Web weave (R227 to R231) -/

/-- The entry of a line time; an entry that is not held is 0 without flags (R228). -/
def State.weaveAt (s : State) (lt : Nat) : Weave := (s.place.hist.find? fun w => w.lt == lt).getD { lt := lt, a := 0, range := false, stale := false }

/-- The latest sample of the channel in use, where one completed in the last HOLD line times (R227, R230). -/
def State.weaveSample (s : State) : Option Nat :=
  let cfg := s.active PLACE.WEAVE_CFG
  match s.samples.getD (bits cfg 27 24) none with
  | none => none
  | some p => if bits cfg 19 10 < p.age then none else some p.v

/-- The entry of this edge (R227, R230). -/
def State.weaveNext (s : State) (before : Weave) : Weave :=
  let cal := s.active PLACE.WEAVE_CAL
  let lim := s.active PLACE.WEAVE_LIMIT
  let mx : Int := bits lim 14 0
  let sl : Int := bits lim 27 16
  if !bit (s.active PLACE.WEAVE_CFG) 31 then { lt := s.lineTime, a := 0, range := false, stale := false }
  else match s.weaveSample with
    | none => { before with lt := s.lineTime, stale := true }
    | some v =>
      let w := rneDiv ((sInt 16 v - sInt 16 (bits cal 31 16)) * sInt 16 (bits cal 15 0)) 4096
      { lt := s.lineTime, a := before.a + sat (sat w (-mx) mx - before.a) (-sl) sl, range := decide (mx < w ∨ w < -mx), stale := false }

/-- The tallies, counters and interrupts of a flagged entry (R229, R230), and the record of a changed one (R231): A in 2 bytes, and a byte of flags
with the range flag in bit 0 and the stale flag in bit 1 (DESIGN CHOICE, log 77: neither R231 nor R581 gives them). -/
def State.weaveReport (s : State) (w before : Weave) : State :=
  let s := if w.range then (s.report pPLACE E.WEAVE_RANGE 0 1 [] [] (some pPLACE) (some 2) true).bump PLACE.WEAVE_RANGES 1 else s
  let s := if w.stale then (s.report pPLACE V.WEAVE_LOST 0 1 [] [] none (some 3) true).bump PLACE.WEAVE_STALES 1 else s
  if w.a = before.a ∧ w.range = before.range ∧ w.stale = before.stale then s
  else (s.event pPLACE V.WEAVE
    [.lt w.lt, .f 2 (uInt 16 w.a), .f 1 ((if w.range then 1 else 0) + if w.stale then 2 else 0)]).bump PLACE.WEAVE_CHANGES 1

/-- The entry of this edge in a replay: the recorded one, or one like the entry before (R231). -/
def State.weaveFed (s : State) (before : Weave) : Weave := (s.recordedWeave s.lineTime).getD { before with lt := s.lineTime }

/-- The weave entry of the edge of this line time is taken (R227); entries of 0 without flags are not listed. -/
def State.weaveEntry (s : State) : State :=
  let before := s.weaveAt (s.lineTime - 1)
  let w := if s.replaying then s.weaveFed before else s.weaveNext before
  let keep := s.place.hist.filter fun h => decide (s.lineTime ≤ h.lt + 1023)
  let v := match s.weaveSample with
    | some v => if bit (s.active PLACE.WEAVE_CFG) 31 then v else s.place.sample
    | none => s.place.sample
  let s : State := { s with place := { s.place with
    hist := if w.a = 0 ∧ !w.range ∧ !w.stale then keep else w :: keep, sample := v } }
  s.weaveReport w before

/-- X of the coming line, with the weave entry it uses (R223, R228). -/
def State.formX (s : State) : Int × Weave :=
  let w := s.weaveAt (s.lineTime - bits (s.active PLACE.WEAVE_CFG) 9 0)
  if s.enabled pPLACE then (sat (sInt 24 (s.active PLACE.OFFSET) + w.a) (-2 ^ 23) (2 ^ 23 - 1), w)
  else (0, { lt := 0, a := 0, range := false, stale := false })

/-- R223, R236: the hand-over edge of line time U forms X(U + 1), stores it with the line's record and takes the fire offsets. -/
def State.placeEdge (s : State) : State :=
  let s := s.weaveEntry
  let (x, w) := s.formX
  let v := s.lineTime + 1
  { s with
    place := { s.place with xNow := x, firePrev := s.place.fire, fire := (List.range 5).map fun k => bits (s.active (PLACE.FIRE k)) 7 0 }
    comp := { s.comp with recs := s.comp.recs.map fun p =>
      if p.1 = v then (p.1, { p.2 with x := x, wRange := w.range, wStale := w.stale }) else p } }

/-- Fire offsets carried by the marker of the line time that ends at this edge, before `placeEdge` (R236, R339). -/
def State.markerDelays (s : State) : List Nat := (List.range 5).map fun k => if k < s.rows then s.place.firePrev.getD k 0 else 0

/-! ### Cells that span an overlap (R242 to R248) -/

/-- R243: cell positions that reach into an overlap and that no valid pair of its side names. -/
def State.unpairedOf (s : State) (x : Slot) : List Nat :=
  let c := s.columns
  (List.range x.across).filter fun j => (List.range 2).any fun d =>
    let w := s.ovlWidth d
    let lo := if d = 0 then 0 else c - w
    decide (0 < w) && decide (x.cellFirst j < lo + w) && decide (lo ≤ x.cellLast j) &&
    !((List.range 4).any fun p => bit (s.pairWord d p) 31 && bits (s.pairWord d p) 5 0 == j)

/-- R243: the unpaired positions of a job that becomes LEADING. -/
def State.voidUnpaired (s : State) (n : Nat) : State :=
  let x := s.slotOf n
  let js := s.unpairedOf x
  if js.isEmpty then s
  else
    let s := s.setSlot n fun x => { x with unpaired := js }
    let s := ((s.error pPLACE E.OVERLAP_DISAGREE [.f 4 x.job]).bump PLACE.DISAGREES 1).raise pPLACE 5
    (x.cells.filter fun c => c.live && js.contains c.pos).foldl (fun s c => s.voidCell n c.idx rOVERLAP_VOID) s

/-- S of R244 for a side. -/
def State.shareEdge (s : State) (x : Slot) (side : Nat) : Nat := min (s.shareLead side) (s.readout x - 1)

/-- R246: a shared cell on which this device and a peer disagree. -/
def State.disagree (s : State) (n idx : Nat) : State :=
  (((s.error pPLACE E.OVERLAP_DISAGREE [.f 4 (s.slotOf n).job, .f 4 idx]).bump PLACE.DISAGREES 1).raise pPLACE 4).suspectCell n idx rOVERLAP

/-- What a cell has from one side. -/
def Cell.sideOf (c : Cell) (d : Nat) : ShareSide := c.share.getD d {}
/-- What a cell has from one side changed. -/
def Cell.setSide (c : Cell) (d : Nat) (f : ShareSide → ShareSide) : Cell := { c with share := modAt c.share d f }

/-- R246: the combined verdicts of this device and of the peer of one side are compared once both are there. -/
def State.compareCombined (s : State) (n idx d : Nat) : State :=
  match (s.slotOf n).liveCell idx with
  | none => s
  | some c =>
    match c.combV, (c.sideOf d).combV with
    | some a, some b =>
      if (c.sideOf d).settled then s
      else
        let s := s.setCell n idx fun c => c.setSide d fun q => { q with settled := true }
        if a = b then s else s.disagree n idx
    | _, _ => s

/-- R244 step 3: the combined verdict of a shared cell. -/
def State.combineCell (s : State) (n : Nat) (c : Cell) : State :=
  let sides := s.pairSides c.pos
  let job := (s.slotOf n).job
  let write := c.localV == some 0 && sides.all fun d => (c.sideOf d).localV == some 0
  let v := if write then 0 else 1
  let s := if write then s else (s.voidCell n c.idx rOVERLAP_VOID).bump PLACE.SHARED_VOIDS 1
  let s := (s.setCell n c.idx fun c => { c with combV := some v, committed := true }).bump PLACE.SHARED_CELLS 1
  sides.foldl (fun s d =>
    ((s.peerToNeighbour d 1 (verdictBody job c.rep c.pos 1 v)).verdictUse job c.idx d 1 v false).compareCombined n c.idx d) s

/-- The live shared cells of a slot that have the edge `t` of their first line and sides behind them. -/
def State.sharedDue (s : State) (n : Nat) (due : Nat → Cell → List Nat → Bool) : List Cell :=
  let x := s.slotOf n
  match x.start with
  | none => []
  | some t0 => x.liveCells.filter fun c => !(s.pairSides c.pos).isEmpty && due (t0 + x.firstLine c) c (s.pairSides c.pos)

/-- OVERLAP_COMBINE: the combined verdicts due at this edge (R244). -/
def State.combineSlot (s : State) (n : Nat) : State :=
  let x := s.slotOf n
  (s.sharedDue n fun t c sides =>
    c.combV.isNone && c.decided && decide (t ≤ s.lineTime + sides.foldl (fun m d => min m (s.shareEdge x d)) 63)).foldl
    (fun s c => s.combineCell n c) s

/-- OVERLAP_COMBINE (R244). -/
def execOverlapCombine (s : State) : Host.Outcome State Fault Refusal := .next (settle s ((List.range 4).foldl State.combineSlot s))

/-- R246: a combined verdict that has not come by its line time. -/
def State.overdueCell (s : State) (n : Nat) (c : Cell) : State :=
  let late := (s.pairSides c.pos).filter fun d => (c.sideOf d).combV.isNone && !(c.sideOf d).settled
  if late.isEmpty then s
  else (s.setCell n c.idx fun c => late.foldl (fun c d => c.setSide d fun q => { q with settled := true }) c).disagree n c.idx

/-- The shared cells of a slot whose peers' combined verdicts are overdue at this edge. -/
def State.deadlineSlot (s : State) (n : Nat) : State :=
  (s.sharedDue n fun t _ _ => decide (t + (s.rows - 1) * s.spacing ≤ s.lineTime)).foldl (fun s c => s.overdueCell n c) s

/-- OVERLAP_DEADLINE (R246). -/
def execOverlapDeadline (s : State) : Host.Outcome State Fault Refusal := .next (settle s ((List.range 4).foldl State.deadlineSlot s))

/-- The slot and live cell that a message from a side names (R242, R245). -/
def State.sharedCell (s : State) (side : Nat) (body : List Byte) : Option (Nat × Cell) :=
  let w := (List.range 4).map (s.pairWord side) |>.find? fun w => bit w 31 && bits w 13 8 == fld body 8 1
  match w, s.slotOfJob (fld body 0 4) with
  | some w, some n => ((s.slotOf n).cells.find? fun c => c.live && c.rep == fld body 4 4 && c.pos == bits w 5 0).map fun c => (n, c)
  | _, _ => none

/-- R245: a verdict that is not used. -/
def State.lateVerdict (s : State) : State := (s.bump PLACE.LATE_VERDICTS 1).event pPLACE V.LATE_VERDICT []

/-- The edge of line time `L - back` of a cell has come. -/
def State.cellEdgePast (s : State) (n : Nat) (c : Cell) (back ahead : Nat) : Bool :=
  match (s.slotOf n).start with
  | none => false
  | some t0 => decide (t0 + (s.slotOf n).firstLine c + ahead ≤ s.lineTime + back)

/-- VERDICT_MESSAGE (R244 to R246, R248). -/
def State.verdictMessage (s : State) (side : Nat) (body : List Byte) : State :=
  match s.sharedCell side body with
  | none => s.lateVerdict
  | some (n, c) =>
    let v := fld body 10 1
    let job := (s.slotOf n).job
    if fld body 9 1 = 0 then
      if s.cellEdgePast n c (s.shareEdge (s.slotOf n) side) 0 then s.lateVerdict
      else (s.setCell n c.idx fun c => c.setSide side fun q => { q with localV := some v }).verdictUse job c.idx side 0 v true
    else if (c.sideOf side).settled then s.lateVerdict
    else ((s.setCell n c.idx fun c => c.setSide side fun q => { q with combV := some v }).verdictUse job c.idx side 1 v true).compareCombined n c.idx side

/-- R602: a peer's verdict that comes live in a replay has its record where it names a live cell, and does not act. -/
def State.shownVerdict (s : State) (side : Nat) (body : List Byte) : State :=
  match s.sharedCell side body with
  | none => s.lateVerdict
  | some (n, c) => (s.verdictUse (s.slotOf n).job c.idx side (fld body 9 1) (fld body 10 1) true).suppress

/-- A verdict that the peer link brings; in a replay it does not act (R602). -/
def State.peerVerdict (s : State) (side : Nat) (body : List Byte) : State :=
  if s.replaying then s.shownVerdict side body else s.verdictMessage side body

/-- VERDICT_MESSAGE (R244). -/
def execVerdictMessage (side : Fin 2) (body : List Byte) (s : State) : Host.Outcome State Fault Refusal :=
  .next (settle s ((s.inboxTaken 1 body).peerVerdict side body))

/-- MARK: the peer has marked the partner of a shared cell (R247). -/
def State.markMessage (s : State) (side : Nat) (body : List Byte) : State :=
  match s.sharedCell side body with
  | none => s
  | some (n, c) => s.suspectFrom n c.idx rPEER_SUSPECT (some side)

/-- MARK (R247). -/
def execMark (side : Fin 2) (body : List Byte) (s : State) : Host.Outcome State Fault Refusal :=
  .next (settle s ((s.inboxTaken 2 body).markMessage side body))

/-! ### Registers (R249) -/

/-- What a read of a derived PLACE register returns. -/
def State.readPlace (s : State) (a : Nat) : Option Nat :=
  let w := s.weaveAt s.lineTime
  if a = PLACE.WEAVE_NOW then some ((if w.stale then 2 ^ 31 else 0) + (if w.range then 2 ^ 30 else 0) + uInt 16 w.a)
  else if a = PLACE.WEAVE_SAMPLE then some s.place.sample
  else if a = PLACE.X_NOW then some (uInt 24 s.place.xNow)
  else if a = STATUS pPLACE then some (s.reg a + (if w.range then 32 else 0) + if w.stale then 16 else 0)
  else none

end Sys2Proof.Machine
end

