-- ==== Sys2Proof/Machine/Split.lean ====
section
/-! DEFINITION. The splitter: transfer tables, beam entries and their changes, sharing, substitution, clipping, and the segments of a line
time (R187 to R220, R226, R263, R264, R270, R273, R495, R518, R661). -/

namespace Sys2Proof.Machine

/-! ### Transfer tables (R187 to R189) -/

/-- F and M of a dose mode (R187). -/
def fullScale (mode : Nat) : Nat := if mode = 1 then 1020 else 252
def beamMax (mode : Nat) : Nat := if mode = 1 then 255 else 63
/-- xfer[s][v] (R188). -/
def Slot.xfer (x : Slot) (v : Nat) : Nat := min (x.transfer v) (fullScale x.doseMode)
/-- The slot holds a table: its JOB_OPEN has been accepted (R188). -/
def Slot.loaded (x : Slot) : Bool := x.occupied && !x.params.isEmpty

/-! ### Beam entries (R194 to R198) -/

def beamGain (e : Nat) : Nat := bits e 9 0
def beamHealth (e : Nat) : Nat := bits e 17 16
/-- The beam of an entry is live (R195). -/
def beamLive (e : Nat) : Bool := beamHealth e == 0 && beamGain e != 0
/-- eff_offset of R197. -/
def effOffset (e mode : Nat) : Int := let o := sInt 6 (bits e 15 10); if mode = 1 then o else rneDiv o 4
/-- cap of R197. -/
def beamCap (e mode : Nat) : Nat :=
  if beamLive e then min (beamMax mode) (((beamMax mode - effOffset e mode) * 512 / beamGain e).toNat) else 0
/-- code of R197. -/
def beamCode (sh e mode : Nat) : Nat :=
  if sh = 0 then 0 else (sat (rneDiv (sh * beamGain e) 512 + effOffset e mode) 0 (beamMax mode)).toNat

/-- Device address of an entry (R194). -/
def State.beamAddr (s : State) (k c : Nat) : Nat := s.beamRegion.1 + 4 * (65536 * k + c)
/-- The current entry of a beam. -/
def State.beamEntry (s : State) (k c : Nat) : Nat := s.readNat (s.beamAddr k c) 4
/-- Four-byte words of a byte list. -/
def words4 : List Byte → List Nat
  | a :: b :: c :: d :: rest => leNat [a, b, c, d] :: words4 rest
  | _ => []
/-- The current entries of a row's columns. -/
def State.beamRow (s : State) (k : Nat) : List Nat := words4 (s.readMem (s.beamAddr k 0) (4 * s.columns))
/-- The entries that line `l` uses in a row (R207, R208): the oldest logged entry of a change whose E is above `l`, else the current one. -/
def State.plannedRow (s : State) (l k : Nat) : List Nat :=
  (s.split.log.filter fun g => g.row == k && decide (l < g.e)).reverse.foldl (fun r g => modAt r g.col fun _ => g.old) (s.beamRow k)

/-! ### Sharing (R200, R201, R232 to R234) -/

/-- split of R200 over the open rows with their capacities; `fuel` bounds the loop. -/
def splitLoop : Nat → List (Nat × Nat) → Nat → Nat → List (Nat × Nat) × Nat
  | 0, _, rem, _ => ([], rem)
  | fuel + 1, rows, rem, rot =>
    let n := rows.length
    if n = 0 then ([], rem)
    else
      let q := rem / n
      let r := rem % n
      let want := rows.zipIdx.map fun p => (p.1, q + if (p.2 + n - rot % n) % n < r then 1 else 0)
      let past := (want.filter fun w => decide (w.1.2 < w.2)).map (·.1)
      if past.isEmpty then (want.map fun w => (w.1.1, w.2), 0)
      else
        let (sh, rest) := splitLoop fuel (rows.filter fun k => !past.contains k) (rem - sumNat (past.map (·.2))) rot
        (past ++ sh, rest)

/-- Shares of rows 0 to 4 and the deficit of a pixel; `caps` holds the capacity of each served row (R200). -/
def splitDose (t : Nat) (caps : List (Option Nat)) (rot : Nat) : List Nat × Nat :=
  let rows := caps.zipIdx.filterMap fun p => p.1.map fun c => (p.2, c)
  let (sh, d) := splitLoop 6 rows t rot
  ((List.range 5).map fun k => ((sh.find? fun p => p.1 == k).map (·.2)).getD 0, d)

/-- The list whose element x is element x + d, for d of 1 or -1; `z` outside. -/
def neighbours {α : Type} (d : Int) (z : α) (l : List α) : List α := if d = 1 then l.drop 1 ++ [z] else z :: l.dropLast

/-- Capacity of row k at each head column where it serves it (R233). -/
def servedCaps (g : Int) (mode : Nat) (row : List Nat) : List (Option Nat) :=
  let own := row.map fun e => if beamLive e then some (beamCap e mode) else none
  if g = 0 then own
  else List.zipWith (fun a b => match a, b with
    | some p, some q => some (min p q)
    | _, _ => none) own (neighbours (shiftDir g) none own)

/-- placed_share of R234 for every beam of a row. -/
def placedShares (g : Int) (sh : List Nat) : List Nat :=
  if g = 0 then sh
  else List.zipWith (fun (p q : Nat) => (rneDiv ((64 - g.natAbs) * p + g.natAbs * q) 64).toNat) sh (neighbours (-(shiftDir g)) 0 sh)

/-- Columns of a list of rows, `n` of them. -/
def columnsOf {α : Type} : Nat → List (List α) → List (List α)
  | 0, _ => []
  | n + 1, ls => ls.filterMap (·.head?) :: columnsOf n (ls.map (·.drop 1))

/-- Shares and deficit of every head column of a line, from its substituted levels (R221 steps 2 to 5). -/
def State.lineShares (s : State) (x : Slot) (r : LineRec) (l : Nat) (lvl : List Byte) : List (List Nat × Nat) :=
  let c := s.columns
  let caps := columnsOf c ((List.range s.rows).map fun k => servedCaps (s.rowShift k) x.doseMode (s.plannedRow l k))
  ((placeLine lvl r.x).zip caps).zipIdx.map fun p => splitDose (s.rampAt c p.2 (x.xfer p.1.1)) p.1.2 ((r.line + p.2) % 5)

/-! ### Cells crossed (R226, R273) -/

/-- Cell positions of beams `[b0, b1]` of row k in a line, and of head column `h` (R226). -/
def State.beamPos (s : State) (x : Slot) (r : LineRec) (k b0 b1 : Nat) : List Nat :=
  let h := headRange s.columns (s.rowShift k) b0 b1
  x.posIn (imageRange s.columns r.x h.1 h.2)
def State.headPos (s : State) (x : Slot) (r : LineRec) (h : Nat) : List Nat := x.posIn (imageRange s.columns r.x h h)

/-- Index of the cell at a position of a line. -/
def LineRec.cell (r : LineRec) (j : Nat) : Nat := (r.base + j) % 2 ^ 32

/-- A marking that the splitter makes (R210): counted where the cell becomes SUSPECT by it. -/
def State.splitMark (s : State) (r : LineRec) (js : List Nat) (cause : Nat) : State :=
  js.foldl (fun s j =>
    match (s.slotOf r.slot).liveCell (r.cell j) with
    | none => s
    | some c =>
      let s := if c.st = 3 ∨ c.st = 4 then s else s.bump SPLIT.SUSPECT_MARKS 1
      if cause = rLATE_VOID then s.voidCell r.slot c.idx cause else s.suspectCell r.slot c.idx cause) s

/-- The slot that holds the table of a line's job (R205). -/
def State.tableSlot (s : State) (r : LineRec) : Option Slot :=
  let x := s.slotOf r.slot
  if x.loaded && x.job == r.job then some x else none

/-- Positions of `js` that hold for every one of a list of columns, without repeats. -/
def posUnion (l : List (List Nat)) : List Nat := l.foldl (fun a js => a ++ js.filter fun j => !a.contains j) []

/-! ### Changes of beam entries (R207 to R209) -/

/-- R209: the cells that lines below E cross in a column whose old entry is not kept. -/
def State.planLost (s : State) (k c e : Nat) : State :=
  let lo := s.lineTime + 1 - (s.rows - 1) * s.spacing
  (s.comp.recs.filter fun p => decide (lo ≤ p.1) && decide (p.1 < e) && p.2.st != 0).foldl (fun s p =>
    match s.tableSlot p.2 with
    | none => s
    | some x => s.splitMark p.2 (s.beamPos x p.2 k c c) rPLAN_LOST) s

/-- R208: the old entry goes into the change log. -/
def State.logOld (s : State) (k c old e : Nat) : State :=
  let s : State := { s with split := { s.split with log := s.split.log ++ [{ row := k, col := c, e := e, old := old }] } }
  s.setReg SPLIT.LOG_PEAK (max (s.reg SPLIT.LOG_PEAK) s.split.log.length)

/-- Scratch addresses of the words with a double-bit error among those that hold `n` entries from a column on (R510, R518). -/
def State.badEntries (s : State) (k c n : Nat) : List Nat := s.badAt (s.beamAddr k c) (4 * n)

/-- R207 to R209: an entry takes a value by the port A master `m`; lines from E = U + 1 on use it. An entry is half a word: where its word shows a
double-bit error, the write is dropped (R512, R518). -/
def State.changeEntry (s : State) (m k c new : Nat) : State :=
  let old := s.beamEntry k c
  let e := s.lineTime + 1
  let bad := s.badEntries k c 1
  if new = old then s
  else if !bad.isEmpty then bad.foldl (fun s a => s.eccUncorrectable m a) s
  else
    let s := if s.split.log.length < 16384 then s.logOld k c old e
      else ((s.planLost k c e).bump SPLIT.LOG_OVERFLOWS 1).raise pSPLIT 4
    s.writeMem (s.beamAddr k c) (leBytes 4 new)

/-- R208: entries that every row is past, once the frames of line time `v` are computed. -/
def State.expireLog (s : State) (v : Nat) : State :=
  { s with split := { s.split with log := s.split.log.filter fun g => decide (v < g.e - 1 + (s.rows - 1) * s.spacing) } }

/-! ### The beam port (R211 to R213) -/

/-- Fields of an entry that BEAM_WMASK selects (R194, R219). -/
def wmaskBits (m : Nat) : Nat := (if bit m 0 then 0x3FF else 0) + (if bit m 1 then 0xFC00 else 0) + if bit m 2 then 0x30000 else 0

/-- The old entry with the selected fields of the new one. -/
def mergeEntry (old new m : Nat) : Nat := (old &&& (0xFFFFFFFF - wmaskBits m)) ||| (new &&& wmaskBits m)

/-- The BEAM_WRITE record (R213). -/
def State.beamRec (s : State) (row col n data m : Nat) : State :=
  s.event pSPLIT V.BEAM_WRITE [.f 1 row, .f 2 col, .f 4 n, .f 4 data, .f 1 m, .lt (s.lineTime + 1)]

/-- A beam port write at a hand-over edge: `n` entries from a column on (R211, R213). -/
def State.beamRange (s : State) (row col n data m : Nat) : State :=
  ((List.range n).foldl (fun s i => s.changeEntry mSPLIT row (col + i) (mergeEntry (s.beamEntry row (col + i)) data m)) s).beamRec row col n data m

/-- A committed beam port write at its hand-over edge (R211); in a replay it does not act (R602). -/
def State.beamPort (s : State) : State :=
  let row := bits (s.active SPLIT.BEAM_SEL) 18 16
  let col := bits (s.active SPLIT.BEAM_SEL) 15 0
  let n := bits (s.active SPLIT.BEAM_COUNT) 16 0
  let data := s.active SPLIT.BEAM_DATA
  let m := s.active SPLIT.BEAM_WMASK
  if s.replaying then (s.beamRec row col n data m).suppress
  else
  let s := s.beamRange row col n data m
  (s.setReg SPLIT.BEAM_STATUS (2 ^ 31 + if n = 0 then 1 else 0)).raise pSPLIT 6

/-! ### Health reports (R214 to R217, R345) -/

/-- What taking a report has changed so far: rows and columns, and those that became DEAD. -/
structure HealthTake where
  st : State
  changed : List (Nat × Nat) := []
  dead : List (Nat × Nat) := []

/-- One beam of a report (R214). -/
def HealthTake.beam (h : HealthTake) (k c : Nat) (failed : Bool) : HealthTake :=
  let s := h.st
  if s.rows ≤ k ∨ s.columns ≤ c then { h with st := s.bump SPLIT.IGNORED_REPORTS 1 }
  else
    let e := s.beamEntry k c
    let change (new : Nat) (d : List (Nat × Nat)) : HealthTake :=
      if (s.badEntries k c 1).isEmpty then
        { st := s.changeEntry mJLINK k c new, changed := h.changed ++ [(k, c)], dead := h.dead ++ d }
      else { h with st := s.changeEntry mJLINK k c new }
    if failed && beamHealth e == 0 then change (e + 0x10000) [(k, c)]
    else if !failed && beamHealth e == 1 && bit (s.reg SPLIT.HEALTH_CFG) 31 then change (e - 0x10000) []
    else h

/-- R216: the look-back of a beam that became DEAD. -/
def State.lookBack (s : State) (k c : Nat) : State :=
  let n := bits (s.reg SPLIT.HEALTH_CFG) 7 0
  (List.range n).foldl (fun s i =>
    let v := s.lineTime + i + 1 - n
    if s.lineTime + i + 1 < n + k * s.spacing then s
    else match keyGet s.comp.recs (v - k * s.spacing) with
      | none => s
      | some r => match s.tableSlot r with
        | none => s
        | some x => if r.st = 0 then s else s.splitMark r (s.beamPos x r k c c) rBEAM_LOST) s

/-- R217: the HEALTH tally of a row that a report changed. -/
def State.healthTally (s : State) (r : HealthReport) (cols : List Nat) (k : Nat) : State :=
  match r.msgs.find? fun m => m.row == k with
  | none => s
  | some m =>
    let key := r.number * 8 + k
    let e := s.lineTime + 1
    let s := s.report pSPLIT V.HEALTH key cols.dedup.length [.f 1 k, .f 2 m.first, .f 4 m.count, .f 1 (if m.failed then 1 else 0), .lt e]
      [.f 1 k, .f 2 (cols.foldl min (cols.headD 0)), .f 2 (cols.foldl max 0), .lt e] none none false
    s.closeCause V.HEALTH key

/-- The beams that a report names, one after another (R214). -/
def HealthTake.report (h : HealthTake) (r : HealthReport) : HealthTake :=
  r.msgs.foldl (fun h m => (List.range m.count).foldl (fun h i => h.beam m.row (m.first + i) m.failed) h) h

/-- R217: the HEALTH tallies of the rows that a report changed. -/
def State.healthTallies (s : State) (r : HealthReport) (changed : List (Nat × Nat)) : State :=
  (List.range 5).foldl (fun s k =>
    let cols := (changed.filter fun p => p.1 == k).map (·.2)
    if cols.isEmpty then s else s.healthTally r cols k) s

/-- What follows the changes of a report (R216, R217); a FULL one closes the health gap (R345). -/
def HealthTake.finish (h : HealthTake) (r : HealthReport) : State :=
  let s := if r.full then { h.st with jl := { h.st.jl with healthGap := false } } else h.st
  let s := h.dead.foldl (fun s d => s.lookBack d.1 d.2) s
  if h.changed.isEmpty then s else ((s.healthTallies r h.changed).bump SPLIT.HEALTH_REPORTS 1).raise pSPLIT 3

/-- A whole report is taken (R214 to R217). -/
def State.takeReport (s : State) (r : HealthReport) : State := (({ st := s } : HealthTake).report r).finish r

/-- R602: a report that comes live in a replay: its HEALTH records are written, and it does not act. -/
def State.shownReport (s : State) (r : HealthReport) : State :=
  (s.healthTallies r (({ st := s } : HealthTake).report r).changed).suppress

/-- The reports that wait are taken in order of arrival (R214); in a replay they do not act (R602). -/
def State.takeReports (s : State) : State :=
  let t : State := { s with jl := { s.jl with reports := [] } }
  if s.replaying then s.jl.reports.foldl State.shownReport t else s.jl.reports.foldl State.takeReport t

/-! ### Substitution (R204, R263, R264) -/

/-- Device memory of the void stamp's row on a line (R263). -/
def State.voidReads (s : State) (t : Stamp) (x : Slot) (line : Nat) : List (Nat × Nat) :=
  s.framesAt t.frames ((line % x.repeatLines) % t.h * pitch t.w) t.w

/-- The void levels of cell position `j` on a line, from its first column (R263); none where the void stamp is not READY. -/
def State.voidRow? (s : State) (x : Slot) (line j : Nat) : Option (List Byte) :=
  let w := x.cellLast j + 1 - x.cellFirst j
  if s.replaying && s.recordedAbsent x.job then none
  else if x.voidStamp = 0xFFFF then some (List.replicate w (BitVec.ofNat 8 x.voidLevel))
  else match x.stampOf x.voidStamp with
    | none => none
    | some t =>
      if t.st ≠ 2 then none
      else
        let row := s.loadAll (s.voidReads t x line)
        some ((List.range w).map fun i => row.getD (i % t.w) 0)

/-- The void levels of a cell position; VOID_LEVEL where the void stamp is not READY (R263). -/
def State.voidRow (s : State) (x : Slot) (line j : Nat) : List Byte :=
  (s.voidRow? x line j).getD (List.replicate (x.cellLast j + 1 - x.cellFirst j) (BitVec.ofNat 8 x.voidLevel))

/-- R264: line `line` of the slot's job is computed while its void stamp is not READY. An unbroken run of such lines has one record, whichever
rows compute them: a line within a run or next after it belongs to the run. -/
def State.noteAbsent (s : State) (x : Slot) (line : Nat) : State :=
  let hit (r : AbsentRun) : Bool := r.job == x.job && decide (r.first ≤ line) && decide (line ≤ r.last + 1)
  if s.split.absent.any hit then
    { s with split := { s.split with absent := s.split.absent.map fun r => if hit r then { r with last := max r.last line } else r } }
  else
    ({ s with split := { s.split with absent := s.split.absent ++ [{ job := x.job, first := line, last := line }] } } : State).event
      pSEAL V.VOID_STAMP_ABSENT [.f 4 x.job, .f 2 x.voidStamp]

/-- Cell positions whose pixels take their void level (R204). -/
def Slot.voidPositions (x : Slot) (r : LineRec) : List Nat :=
  (List.range x.across).filter fun j => bit r.void j ||
    (bit r.prov j && !((x.cells.find? fun c => c.idx == r.cell j).any fun c => c.st == 2 || c.st == 5))

/-- The void levels of a cell position over a line's levels. -/
def State.putVoid (s : State) (x : Slot) (r : LineRec) (lvl : List Byte) (j : Nat) : List Byte :=
  lvl.take (x.cellFirst j) ++ s.voidRow x r.line j ++ lvl.drop (x.cellLast j + 1)

/-- R495, R518: the pixels of `n` columns whose read failed take their void level; a column of no cell has a free value (log 3). The cells
become SUSPECT with LATE_VOID. -/
def State.spoil (s : State) (x : Slot) (r : LineRec) (lvl : List Byte) (a n : Nat) : List Byte × State :=
  let (fr, s) := s.freshBytes n
  let px (i : Nat) : Byte := match x.posOf (a + i) with
    | none => fr.getD i 0
    | some j => (s.voidRow x r.line j).getD (a + i - x.cellFirst j) 0
  (lvl.take a ++ (List.range n).map px ++ lvl.drop (a + n),
   s.splitMark r (x.posIn ((a : Int), (a : Int) + n - 1)) rLATE_VOID)

/-! ### Frames of a line time (R190 to R206) -/

/-- Device address of a line in the delay ring (R191). -/
def State.delayAddr (s : State) (lt : Nat) : Nat := s.delayRegion.1 + lt % 256 * s.columns

/-- A line as the splitter reads it from the lead ring. A read that the controller does not serve brings nothing by then, and the spec does not
say what the splitter goes on with: the levels are free (R500, R505, R508, log 74). -/
def State.leadLevels (s : State) (v : Nat) : List Byte × State :=
  if s.hbmServes (s.leadAddr v) s.columns then (s.readMem (s.leadAddr v) s.columns, s.touch [(s.leadAddr v, s.columns)])
  else s.freshBytes s.columns

/-- R495: the line read from the lead ring, with its poisoned units. -/
def State.leadRead (s : State) (r : LineRec) (v : Nat) (units : List Nat) : List Byte × State :=
  let (lvl, s) := s.leadLevels v
  units.foldl (fun p u =>
    let st := p.2.poisoned .splitter (s.leadAddr v + 256 * u) false [.f 4 r.job, .f 6 r.line]
    match st.tableSlot r with
    | none => (p.1, st)
    | some x => if r.st = 0 then (p.1, st) else st.spoil x r p.1 (256 * u) 256) (lvl, s)

/-- CTRL.EN as the edge of this line time takes it: a write in the hand-over cycle leaves the old value to that edge (R36, R661). -/
def State.splitOn (s : State) : Bool := match keyGet s.heldBack (CTRL pSPLIT) with
  | none => s.enabled pSPLIT
  | some w => bit w.toNat 0

/-- R145, R191, R255: the splitter takes line `v` from the lead ring, commits its cells, marks those of flagged weave entries (R229, R230)
and writes the line into the delay ring (not while EN is 0, R661). -/
def State.takeLine (s : State) (v : Nat) (env : LineEnv) : State :=
  match keyGet s.comp.recs v with
  | none => s
  | some r =>
    let s : State := { s with comp := { s.comp with recs := keySet s.comp.recs v { r with taken := true } } }
    let s := if r.st = 0 then s
      else s.setSlot r.slot fun x => if x.job = r.job then { x with cells := x.cells.map fun c =>
        if c.live && c.rep == r.line / x.repeatLines then { c with committed := true } else c } else x
    let s := match s.tableSlot r with
      | none => s
      | some x =>
        let all := if r.st = 0 then [] else List.range x.across
        let s := if r.wRange then s.splitMark r all rWEAVE_RANGE else s
        if r.wStale then s.splitMark r all rWEAVE_LOST else s
    let (lvl, s) := s.leadRead r v env.leadReadPoison
    if s.splitOn then s.writeMem (s.delayAddr v) lvl else s

/-- R518: the scratch words of `n` bytes at a device address whose read by the splitter fails: those that the line time's report names, and those
that show a double-bit error. In a replay the second are recorded and do not act (R600, R602). -/
def State.splitFails (s : State) (a n : Nat) (named : List Nat) : List Nat × State :=
  let live := (s.badAt a n).filter fun w => !named.contains w
  if s.replaying then (named, (named.foldl (fun s w => s.eccLine mSPLIT w) s) |> live.foldl fun s w => (s.eccRecord mSPLIT w).suppress)
  else (named ++ live, (named ++ live).foldl (fun s w => s.eccLine mSPLIT w) s)

/-- R518: the delay ring line that a row reads, with its uncorrectable words; row 0 has the line from the lead ring (R191). -/
def State.delayRead (s : State) (x : Slot) (r : LineRec) (l k : Nat) (words : List (Nat × Nat)) : List Byte × State :=
  let a := s.delayAddr l
  let lvl := s.readMem a s.columns
  if k = 0 then (lvl, s)
  else
    let (bad, s) := s.splitFails a s.columns ((words.filter fun w => w.1 == k).map fun w => a + 8 * w.2 - scratchBase)
    bad.foldl (fun p w => p.2.spoil x r p.1 (scratchBase + w - a) 8) (lvl, s)

/-- R204, R264: the substituted levels of a line for row `k`. -/
def State.substituted (s : State) (x : Slot) (r : LineRec) (l k : Nat) (env : LineEnv) : List Byte × State :=
  let (lvl, s) := s.delayRead x r l k env.delayUncorr
  let js := x.voidPositions r
  let s := if js.any fun j => (s.voidRow? x r.line j).isNone then s.noteAbsent x r.line else s
  let s := if js.isEmpty then s else match x.stampOf x.voidStamp with
    | none => s
    | some t => s.touch (s.voidReads t x r.line)
  (js.foldl (s.putVoid x r) lvl, s)

/-- R202: the pixels of a line that clip, found at row 0's frame. -/
def State.clip (s : State) (x : Slot) (r : LineRec) (cols : List Nat) : State :=
  if cols.isEmpty then s
  else
    let s := (s.bump SPLIT.CLIPPED_PIXELS cols.length).bump SPLIT.CLIPPED_LINES 1
    let s := s.report pSPLIT E.DOSE_CLIPPED 0 1 [.f 4 r.job, .f 6 r.line] [] (some pSPLIT) (some 2) true
    s.splitMark r (posUnion (cols.map fun h => s.headPos x r h)) rCLIPPED

/-- R210, R518: beams of a row whose planned share is above 0 and that are not live now. -/
def lostBeams (sh cur : List Nat) (dead : List Nat) : List Nat :=
  ((sh.zip cur).zipIdx.filter fun p => p.1.1 != 0 && (!beamLive p.1.2 || dead.contains p.2)).map (·.2)

/-- The columns of row k whose entries lie in the word at a scratch address: a word holds two (R194, R510). -/
def State.wordBeams (s : State) (k w : Nat) : List Nat :=
  (List.range 2).filterMap fun i => if s.beamAddr k 0 ≤ scratchBase + w + 4 * i then some ((scratchBase + w + 4 * i - s.beamAddr k 0) / 4) else none

/-- The codes of row k for line `l`, by the steps of R221. -/
def State.rowCodes (s : State) (x : Slot) (r : LineRec) (l k : Nat) (env : LineEnv) : List Byte × State :=
  let (lvl, s) := s.substituted x r l k env
  let shares := s.lineShares x r l lvl
  let s := if k = 0 then s.clip x r ((shares.zipIdx.filter fun p => p.1.2 != 0).map (·.2)) else s
  let sh := placedShares (s.rowShift k) (shares.map fun p => p.1.getD k 0)
  let named := (env.beamUncorr.filter fun b => b.1 == k).map fun b => (s.beamAddr k b.2 - scratchBase) / 8 * 8
  let (bad, s) := s.splitFails (s.beamAddr k 0) (4 * s.columns) named.dedup
  let lost := lostBeams sh (s.beamRow k) (bad.flatMap (s.wordBeams k))
  let codes := List.zipWith (fun q e => BitVec.ofNat 8 (beamCode q e x.doseMode)) sh (s.plannedRow l k)
  (lost.foldl (fun cs c => modAt cs c fun _ => 0) codes,
   if lost.isEmpty then s else s.splitMark r (posUnion (lost.map fun c => s.beamPos x r k c c)) rBEAM_LOST)

/-- R205: a line whose job has no table. -/
def State.tableMissing (s : State) (r : LineRec) (l : Nat) : State :=
  if r.missing then s
  else
    let s : State := { s with comp := { s.comp with recs := keySet s.comp.recs l { r with missing := true } } }
    let s := ((s.error pSPLIT E.TABLE_MISSING [.f 4 r.job, .f 6 r.line]).bump SPLIT.TABLE_MISSINGS 1).raise pSPLIT 5
    match s.slotOfJob r.job with
    | none => s
    | some n => s.splitMark { r with slot := n } (List.range (s.slotOf n).across) rTABLE_MISSING

/-- The segments of a row: one for each strip, with the cells that it crosses (R270, R273). -/
def State.rowSegs (s : State) (v k : Nat) (d : SegData) (codes : List Byte) (cross : Nat → List (Nat × Nat)) : State :=
  (List.range s.strips).foldl (fun s m =>
    let cells := cross m
    let data : SegData := { d with row := k, strip := m, codes := (codes.drop (4096 * m)).take 4096 }
    { s with segs := s.segs ++ [{ lt := v, data := data, cells := cells }], led := { s.led with seals := (v, data) :: s.led.seals } }) s

/-- Every row reads from the delay ring only lines written since EN last became 1 (R661). -/
def State.ringHolds (s : State) (l : Nat) : Bool := match s.split.enSince with
  | none => false
  | some t => decide (t ≤ l)

/-- The frame of row k in line time `v` (R190, R205, R206, R661). -/
def State.rowFrame (s : State) (v : Nat) (env : LineEnv) (k : Nat) : State :=
  let l := v - k * s.spacing
  let idle (s : State) : State := s.rowSegs v k {} [] fun _ => []
  match (if v < k * s.spacing then none else keyGet s.comp.recs l) with
  | none => idle s
  | some r =>
    if r.st = 0 then idle s
    else match s.tableSlot r with
      | none => if s.ringHolds l then (s.tableMissing r l).rowSegs v k { job := r.job, line := r.line, mode := 0 } [] fun _ => [] else idle s
      | some x =>
        if !s.ringHolds l then idle (s.splitMark r (List.range x.across) rFRAME_LOST)
        else
          let (codes, s) := s.rowCodes x r l k env
          s.rowSegs v k { job := r.job, line := r.line, mode := x.doseMode } codes fun m =>
            (s.beamPos x r k (4096 * m) (4096 * m + 4095)).map fun j => (r.slot, r.cell j)

/-- R661: a change of CTRL.EN takes effect for the frames of the coming line time. -/
def State.splitEnable (s : State) (v : Nat) : State :=
  { s with split := { s.split with enSince := if s.splitOn then (match s.split.enSince with
      | none => some v
      | some t => some t) else none } }

/-- R661: once CTRL.EN has been written to 0, the lines written before are none that EN at 1 has written. A write that lands in the hand-over
cycle counts from the hand-over after the coming one on (R36). -/
def State.splitCtrl (s : State) (a old : Nat) (late : Bool) : State :=
  if a ≠ CTRL pSPLIT then s
  else if late then (if s.reg a = old then s.setLate pSPLIT else s.lateShadow a old)
  else if s.enabled pSPLIT then s
  else { s with split := { s.split with enSince := none } }

/-- The writes of CTRL that the edge of this line time left to the next one act from here on (R36, R661). -/
def State.splitLate (s : State) : State :=
  if (keyGet s.heldBack (CTRL pSPLIT)).isNone then s
  else { s with heldBack := keyErase s.heldBack (CTRL pSPLIT), split := { s.split with enSince := none } }

/-- R191, R193: the frames of line time U + 1, computed in line time U. -/
def State.splitFrames (s : State) (env : LineEnv) : State :=
  let v := s.lineTime + 1
  let s := (s.splitEnable v).takeLine v env
  (((List.range s.rows).foldl (fun s k => s.rowFrame v env k) s).expireLog v).splitLate

/-! ### Registers (R219) -/

/-- Current live mask of a column. -/
def State.liveMask (s : State) (c : Nat) : Nat := posMask ((List.range s.rows).filter fun k => beamLive (s.beamEntry k c))

/-- What a read of a derived SPLIT register returns. -/
def State.readSplit (s : State) (a : Nat) : Option Nat :=
  if a = SPLIT.LIVE_INFO then
    let c := bits (s.reg SPLIT.LIVE_SEL) 15 0
    some (((List.range s.rows).filter fun k => beamLive (s.beamEntry k c)).length * 256 + s.liveMask c)
  else if a = SPLIT.TABLE_VALUE then
    let x := s.slotOf (bits (s.reg SPLIT.TABLE_SEL) 17 16)
    some (if x.loaded then x.xfer (bits (s.reg SPLIT.TABLE_SEL) 7 0) else 0)
  else if a = SPLIT.LOG_USED then some s.split.log.length
  else if a = SPLIT.LOG_PEAK then some (max (s.reg a) s.split.log.length)
  else if a = SPLIT.NONLIVE_BEAMS then
    some (sumNat ((List.range s.rows).map fun k => ((s.beamRow k).filter fun e => !beamLive e).length))
  else if a = STATUS pSPLIT then some (s.reg a + if s.split.log.length = 16384 then 16 else 0)
  else if SPLIT.SLOT_TABLE_JOB 0 ≤ a ∧ a < SPLIT.SLOT_TABLE_JOB 4 then
    let x := s.slotOf ((a - SPLIT.SLOT_TABLE_JOB 0) / 8)
    if !x.loaded then some 0
    else if (a - SPLIT.SLOT_TABLE_JOB 0) % 8 = 0 then some x.job
    else
      let sat := (List.range 256).any fun v => decide (fullScale x.doseMode < x.transfer v)
      some (2 ^ 31 + (if sat then 2 ^ 30 else 0) + x.doseMode * 2 ^ 29)
  else none

end Sys2Proof.Machine
end

