-- ==== Sys2Proof/Machine/Web.lean ====
section
/-! DEFINITION. Web following: the encoder, the web-follow loop and the generator, postcards, stops and reversals, timeline faults
(R287 to R319, R660). What a line event does is in Line.lean. -/

namespace Sys2Proof.Machine

/-- Sources (R288). -/
def srcENCODER : Nat := 0
def srcTRIGGER : Nat := 1
def srcPOSTCARD : Nat := 2
/-- The active source. -/
def State.source (s : State) : Nat := bits (s.active WEB.SOURCE) 1 0
/-- WEB runs on a source. -/
def State.webOn (s : State) (src : Nat) : Bool := s.enabled pWEB && s.source == src
/-- A slot is LEADING, WRITING or DRAINING. -/
def State.slotsBusy (s : State) : Bool := !s.jobsQuiet

/-! ### Timeline faults (R315, R660) -/

/-- pg in 2^-16 line, 64 bits (R315, R318). -/
def State.pos16 (s : State) : Nat := uInt 64 (s.web.pg / 2 ^ 32)

/-- R315: a timeline fault of a cause is raised; in a replay its DAMAGE and its voids do not act (R602). -/
def State.timelineFault (s : State) (code : Nat) : State :=
  let s := (List.range 4).foldl (fun s n =>
    let x := s.slotOf n
    if x.st = .leading ∨ x.st = .writing then s.lowerDamage n (s.firstUntaken n) V.TIMELINE_FAULT else s) s
  let s := if s.replaying then s.suppress else s.voidCommitted
  let s := s.event pWEB V.TIMELINE_FAULT [.f 1 code, .f 8 s.pos16]
  let s : State := { s with web := { s.web with fault := true, owed := true } }
  (s.raise pWEB 2).bump WEB.TL_FAULTS 1

/-- R660: a fault whose condition lasts is raised once when the condition begins. -/
def State.lastingFault (s : State) (key code : Nat) : State :=
  if s.web.lasting.contains key then s
  else ({ s with web := { s.web with lasting := s.web.lasting ++ [key] } } : State).timelineFault code

/-- The condition of a fault ends (R315). -/
def State.faultEnds (s : State) (key : Nat) : State := { s with web := { s.web with lasting := s.web.lasting.filter (· != key) } }

/-- R316: CLEAR acts once every condition of a raised fault has ended. -/
def State.webClear (s : State) : State :=
  if s.web.lasting.isEmpty then { s with web := { s.web with fault := false } } else s

/-- CLEAR (R316). -/
def execClear (s : State) : Host.Outcome State Fault Refusal := .next (settle s (s.wakeEvent wakeREGISTER).webClear)

/-! ### Captured errors (R295, R299) -/

/-- e is captured: TRACK_ERR, TRACK_PEAK and the check of R299. -/
def State.captured (s : State) (e : Int) : State :=
  let s : State := { s with web := { s.web with capture := some e } }
  let s := (s.setReg WEB.TRACK_ERR (uInt 32 e)).setReg WEB.TRACK_PEAK (max (s.reg WEB.TRACK_PEAK) e.natAbs)
  if bits (s.active WEB.TRACK_MAX) 15 0 < e.natAbs then s.lastingFault 4 4 else s.faultEnds 4

/-- Saturation to s32. -/
def satS32 (x : Int) : Int := sat x (-2 ^ 31) (2 ^ 31 - 1)

/-- e of R295 in ENCODER mode, at the count. -/
def State.encoderError (s : State) : Int :=
  let num := bits (s.active WEB.ENC_SCALE) 31 16
  let den := max 1 (bits (s.active WEB.ENC_SCALE) 15 0)
  satS32 (rneDiv (s.web.count * num * 2 ^ 48 - s.web.pg * den) (den * 2 ^ 32))

/-- e of R295 in TRIGGER mode. -/
def State.triggerError (s : State) : Int := satS32 (rneDiv (s.lineTime * 2 ^ 48 - s.web.pg) (2 ^ 32))

/-! ### Reversals (R313) -/

/-- R313: the position against the high-water line. -/
def State.reverseCheck (s : State) : State :=
  let down : Int := s.web.hw * 2 ^ 48 - s.web.pg
  if down ≤ 0 then ({ s with web := { s.web with reverse := false } } : State).faultEnds 5
  else
    let s := if 2 ^ 48 < down ∧ !s.web.reverse then
        (((({ s with web := { s.web with reverse := true } } : State).error pWEB E.WEB_REVERSE []).bump WEB.REVERSALS 1).raise pWEB 6)
      else s
    if (bits (s.reg WEB.REVERSE_MAX) 15 0 : Int) * 2 ^ 48 < down then s.lastingFault 5 5 else s

/-! ### The encoder (R290 to R294) -/

/-- The direction of a quadrature transition: some true forward where ENC_A leads (R291); none where both phases changed. -/
def quadStep (a b a' b' : Bool) : Option Bool :=
  if a == a' then some (a == b') else if b == b' then some (a' != b') else none

/-- R292, R293: ENCODER_FAULT and its timeline fault, which ends at once. -/
def State.encoderFault (s : State) : State := ((s.error pWEB E.ENCODER_FAULT []).bump WEB.ENC_FAULTS 1).timelineFault 1

/-- A counted edge (R291, R295). -/
def State.encoderCount (s : State) (up : Bool) : State :=
  let q := s.web.count + if up then 1 else -1
  let s : State := { s with web := { s.web with count := q, fwd := up, zAt := if up then s.web.zAt else none } }
  let s := s.setReg WEB.ENC_COUNT (uInt 32 q)
  if s.webOn srcENCODER then (s.captured s.encoderError).reverseCheck else s

/-- ENCODER_EDGE: a filtered change of the phases (R291). -/
def State.encoderEdge (s : State) (a b : Bool) : State :=
  let w := s.web
  let s : State := { s with web := { s.web with encA := a, encB := b } }
  if w.encA == a && w.encB == b then s
  else match quadStep w.encA w.encB a b with
    | none => s.encoderFault
    | some f => s.encoderCount (f != bit (s.active WEB.ENC_CFG) 8)

/-- ENCODER_EDGE (R291). -/
def execEncoderEdge (a b : Bool) (s : State) : Host.Outcome State Fault Refusal := .next (settle s (s.encoderEdge a b))

/-- ENC_INDEX: a rising edge of ENC_Z met while the web runs forward, held to the edge before it while Z_EN is 1 (R293). -/
def State.encIndex (s : State) : State :=
  if s.web.fwd then
    let q := s.web.count
    let before := s.web.zAt
    let s : State := { s with web := { s.web with zAt := some q } }
    match before with
    | none => s
    | some z => if !bit (s.active WEB.ENC_CFG) 9 || uInt 32 (q - z) = s.active WEB.Z_COUNTS then s else s.encoderFault
  else s

/-- ENC_INDEX (R293). -/
def execEncIndex (s : State) : Host.Outcome State Fault Refusal := .next (settle s s.encIndex)

/-! ### Postcards (R303 to R306) -/

/-- VEL of the body: the rate in 2^-8 line/s (R303). -/
def State.cardVel (s : State) : Int := rneDiv (s.web.v * 10 ^ 9) (2 ^ 40)

/-- The body of the postcard that is sent with a SEQ (R303). -/
def State.cardBody (s : State) (seq : Nat) : List Byte :=
  leBytes 4 seq ++ leBytes 2 s.deviceNo ++
  leBytes 1 ((if s.web.stopped then 1 else 0) + (if s.web.reverse then 2 else 0) + if s.web.owed then 4 else 0) ++ leBytes 1 0 ++
  leBytes 4 s.time.ns ++ leBytes 2 (s.time.frac / 2 ^ 16) ++ leBytes 2 0 ++ leBytes 8 s.pos16 ++ leBytes 4 (uInt 32 s.cardVel) ++
  leBytes 4 (s.active WEB.ACCEL)

/-- POSTCARD_SEND (R304). -/
def State.postcardSend (s : State) : State :=
  let cfg := s.reg WEB.PC_CFG
  if bit cfg 25 && s.enabled pWEB && s.source != srcPOSTCARD then
    let seq := (s.reg WEB.PC_SEQ + 1) % 2 ^ 32
    let body := s.cardBody seq
    let s := ({ s with web := { s.web with owed := false } } : State).setReg WEB.PC_SEQ seq
    if bit cfg 24 then s.ethPostcard body else s.peerBroadcast 3 body
  else s

/-- POSTCARD_SEND (R304). -/
def execPostcardSend (s : State) : Host.Outcome State Fault Refusal := .next (settle s s.postcardSend)

/-- POSTCARD_LOST is recorded (R305, R306). -/
def State.postcardLost (s : State) : State := (s.error pWEB E.POSTCARD_LOST []).bump WEB.PC_GAPS 1

/-- A postcard that is taken (R305, R306). -/
def State.cardTake (s : State) (b : List Byte) : State :=
  let card : Card := { seq := fld b 0 4, time := fld b 8 4 * 2 ^ 16 + fld b 12 2, pos := fld b 16 8, vel := sInt 32 (fld b 24 4),
                       acc := sInt 32 (fld b 28 4) }
  let s : State := { s with web := { s.web with card := some card, cardFirst := false, coasting := false } }
  let s := (s.setReg WEB.PC_SEQ card.seq).faultEnds 6
  if bit (fld b 6 1) 2 then s.timelineFault 8 else s

/-- POSTCARD: it is taken when its SEQ follows the one taken last (R305). -/
def State.postcard (s : State) (b : List Byte) : State :=
  if s.webOn srcPOSTCARD then
    match s.web.card with
    | none => s.cardTake b
    | some k =>
      if s.web.cardFirst then s.cardTake b
      else if precedes k.seq (fld b 0 4) then
        (if fld b 0 4 = (k.seq + 1) % 2 ^ 32 then s else s.postcardLost).cardTake b
      else s
  else s

/-- Postcards come from both sides of a chain or from Ethernet: the taken message leaves the queue (R400, R432). -/
def execPostcard (body : List Byte) (s : State) : Host.Outcome State Fault Refusal := .next (settle s ((s.inboxTaken 3 body).postcard body))

/-- COASTING: no postcard for PC_CFG.COAST us (R306). -/
def State.coast (s : State) : State :=
  if s.webOn srcPOSTCARD && !s.web.coasting then
    (({ s with web := { s.web with coasting := true } } : State).postcardLost).lastingFault 6 6
  else s

/-- COASTING (R306). -/
def execCoasting (s : State) : Host.Outcome State Fault Refusal := .next (settle s s.coast)

/-- predict of R305, 2^-16 line, at the local time. -/
def State.predict (s : State) (k : Card) : Nat :=
  let dt := sInt 48 (uInt 48 ((s.time.ns * 2 ^ 16 + s.time.frac / 2 ^ 16 : Int) - k.time))
  uInt 64 (k.pos + rneDiv (k.vel * dt * 2 ^ 8) (10 ^ 9 * 2 ^ 16) + rneDiv (k.acc * dt * dt * 2 ^ 15) (10 ^ 18 * 2 ^ 32))

/-! ### The web-follow loop (R296, R297, R300) -/

/-- RATE of R318. -/
def rateOf (v : Int) : Nat := min (rneDiv (v * 10 ^ 9) (2 ^ 48)).toNat 0x7FFFF

/-- loop_sample of R296. -/
def State.loopStep (s : State) : State :=
  let cfg := s.active WEB.LOOP_CFG
  let t := 4 * bits cfg 9 0
  let e := s.web.capture.getD 0
  let ff := rneDiv (sInt 32 (s.active WEB.ACCEL) * t * 2 ^ 48) (10 ^ 18)
  let vmax : Int := min (bits (s.reg WEB.RATE_MAX) 18 0) 450000 * 2 ^ 48 / 10 ^ 9
  let v := s.web.v + ff + rneDiv (e * 2 ^ 32) (2 ^ bits cfg 28 24)
  let clamped := decide (vmax < v)
  let v := max 0 (min v vmax)
  let c := rneDiv (e * 2 ^ 32) (2 ^ bits cfg 19 16 * max 1 t)
  let s : State := { s with web := { s.web with v := v, c := c, capture := none } }
  let s := s.setReg WEB.RATE (rateOf v)
  if clamped then s.lastingFault 3 3 else s.faultEnds 3

/-- LOOP_SAMPLE: hand-over, the capture of POSTCARD mode, and the loop (R295, R296). -/
def State.loopSample (s : State) : State :=
  let s := (s.takeShadows .loop).takePending .loop
  if s.enabled pWEB then
    let s := match s.web.card with
      | none => s
      | some k => if s.source = srcPOSTCARD then s.captured (satS32 (rneDiv (s.predict k * 2 ^ 32 - s.web.pg) (2 ^ 32))) else s
    s.loopStep
  else s

/-- LOOP_SAMPLE (R296). -/
def execLoopSample (s : State) : Host.Outcome State Fault Refusal := .next (settle s s.loopSample)

/-! ### The generator (R296, R297) -/

/-- qe of R296 without pg. -/
def State.qeOffset (s : State) : Int := s.web.v * bits (s.active WEB.COMP) 5 0 + s.web.along * 2 ^ 40

/-- The position has passed the next line event (R296). -/
def State.crossing (s : State) : Bool := decide ((s.web.hw : Int) < (s.web.pg + s.qeOffset) / 2 ^ 48)

/-- n clocks of the generator (R296), and the time since the last line event (R289). -/
def State.generate (s : State) (n : Nat) : State :=
  let s : State := { s with web := { s.web with gap := min 2200 (s.web.gap + n) } }
  if s.enabled pWEB then
    ({ s with web := { s.web with pg := s.web.pg + n * (s.web.v + s.web.c) } } : State).reverseCheck
  else s

/-- R297, R305: CTRL.EN becomes 1: LINE_TIME, pg and hw start from 0. The counts and the captured error start anew with them, and what belongs
to the line times before goes (log 41): records, seals, logged beam entries, and open runs of lines, whose tallies close. -/
def State.webEnabled (s : State) (old : Nat) : State :=
  if bit old 0 || !s.enabled pWEB then s
  else
    let s := (s.closeTallies (·.byLine)).setReg WEB.ENC_COUNT 0
    { s with lineTime := 0
             web := { s.web with pg := 0, hw := 0, v := 0, c := 0, along := 0, capture := none, count := 0, zAt := none, cardFirst := true,
                                 trigRun := false, trigFault := false }
             comp := { s.comp with recs := [], plan := none }
             place := { s.place with hist := [] }
             split := { s.split with enSince := none, log := [] }
             led := { s.led with digestN := 0, seals := [] } }

/-! ### Stops and the press (R312, R314) -/

/-- STOPPED: no line event for STOP_TIME us (R312, R317). -/
def State.webStopped (s : State) : State :=
  if !s.web.stopped then
    (({ s with web := { s.web with stopped := true } } : State).raise pWEB 3).event pWEB V.STOP []
  else s

/-- STOPPED (R312). -/
def execStopped (s : State) : Host.Outcome State Fault Refusal := .next (settle s s.webStopped)

/-- The first line event after a stop (R312, R317). -/
def State.webRuns (s : State) : State :=
  if s.web.stopped then (({ s with web := { s.web with stopped := false } } : State).raise pWEB 4).event pWEB V.RUNNING [] else s

/-- R314: fire markers are sent. -/
def State.markersOn (s : State) : Bool := s.web.press || s.slotsBusy

/-- TIMELINE: every TL_PERIOD line times (R317). -/
def State.timeline (s : State) : State :=
  let n := bits (s.reg WEB.TL_PERIOD) 15 0
  if s.enabled pWEB && n != 0 && s.lineTime % n == 0 then
    s.event pWEB V.TIMELINE [.f 8 (s.time.epoch * 2 ^ 32 + s.time.ns), .f 4 (s.reg WEB.RATE)]
  else s

/-- TIMELINE (R317). -/
def execTimeline (s : State) : Host.Outcome State Fault Refusal := .next (settle s s.timeline)

/-! ### Registers (R318) -/

/-- What a read of a derived WEB register returns. -/
def State.readWeb (s : State) (a : Nat) : Option Nat :=
  if a = WEB.LINE_TIME_LO then some (s.lineTime % 2 ^ 32)
  else if a = WEB.LINE_TIME_HI then some (s.lineTime / 2 ^ 32)
  else if a = WEB.POS_LO then some (s.pos16 % 2 ^ 32)
  else if a = WEB.POS_HI then some (s.pos16 / 2 ^ 32)
  else if a = STATUS pWEB then
    let fast := match s.comp.on with
      | none => false
      | some n => decide ((s.slotOf n).maxRate < s.reg WEB.RATE)
    some (s.reg a + (if s.web.fault then 1024 else 0) + s.source * 256 + (if fast then 128 else 0) + (if s.web.coasting then 64 else 0) +
      (if s.web.reverse then 32 else 0) + if s.web.stopped then 16 else 0)
  else none

end Sys2Proof.Machine
end

