-- ==== Sys2Proof/Machine/Axes.lean ====
section
/-! DEFINITION. Head lift axes: steps, ramps, moves, homing, limits and the splice lift (R456 to R480). -/

namespace Sys2Proof.Machine

/-- Axis `a`. -/
def State.axisOf (s : State) (a : Nat) : Axis := s.axes.getD a {}
/-- Axis `a` changed. -/
def State.setAxis (s : State) (a : Nat) (f : Axis → Axis) : State := { s with axes := modAt s.axes a f }
/-- EN and AXIS of SPLICE_CFG (R479). -/
def State.spliceEn (s : State) : Bool := bit (s.active AXIS.SPLICE_CFG) 31
def State.spliceAxis (s : State) : Nat := bits (s.active AXIS.SPLICE_CFG) 1 0
/-- SAFE_POS (R479). -/
def State.safePos (s : State) : Int := s.active AXIS.SAFE_POS

/-! ### HEAD_SAFE and EN (R459, R478) -/

/-- R478: HEAD_SAFE. -/
def State.headSafeNow (s : State) : Bool :=
  let x := s.axisOf s.spliceAxis
  s.spliceEn && x.st == 0 && x.homed && decide (x.pos ≤ s.safePos) && !s.markersOn

/-- R478: HEAD_SAFE follows its condition, and its rise raises IRQ_RAW.SAFE. -/
def State.headSync (s : State) : State :=
  let h := s.headSafeNow
  let t : State := { s with headSafe := h }
  if h && !s.headSafe then t.raise pAXIS 5 else t

/-- CFG of an axis as it is in force: a write during an action acts at the next action (R463). -/
def State.axisCfg (s : State) (a : Nat) : Nat := (s.axisOf a).cfg.getD (s.reg (AXIS.CFG a))

/-- A write of CFG, after the store of its bits: `old` stays in force while an action runs, and until the next one starts (R463). -/
def State.cfgWritten (s : State) (a old : Nat) : State :=
  s.setAxis a fun x => { x with cfg := if x.st = 0 then none else some (x.cfg.getD old) }

/-- R459, R475: in how many sixteenths of each 10 us EN[a] is high: 16 is full current, and homing has the duty of HOME_DUTY. -/
def State.axisEn (s : State) (a : Nat) : Nat :=
  let x := s.axisOf a
  if !s.enabled pAXIS then 0
  else if x.st = 2 then x.duty
  else if bit (s.axisCfg a) 2 || x.st != 0 || (s.spliceEn && s.spliceAxis == a) then 16
  else 0

/-! ### Ramps (R465, R466) -/

/-- F of R465. -/
def rampF : Nat := 256 * 10 ^ 8

/-- faster of R465. -/
def Axis.faster (x : Axis) (c n : Nat) : Nat :=
  let y : Int := if x.recur then c - rneDiv (2 * c) (4 * n + 1) else rneDiv (rampF ^ 2 * c) (rampF ^ 2 + x.accel * c ^ 2)
  max y.toNat (x.cmin * 256)

/-- slower of R465. -/
def Axis.slower (x : Axis) (c n : Nat) : Nat :=
  let d : Int := rampF ^ 2 - x.accel * c ^ 2
  let y : Int := if x.recur then c + rneDiv (2 * c) (4 * n - 1) else if d ≤ 0 then x.c0 * 256 else rneDiv (rampF ^ 2 * c) d
  min y.toNat (x.c0 * 256)

/-- R458: an interval in axis clocks. -/
def clampInterval (c : Nat) : Nat := min 16777215 (max 500 (c / 256))

/-- c and n for the interval after step `i` of R465, where `i` is above 1 and below dist. -/
def Axis.ramp (x : Axis) (i : Nat) : Axis :=
  let r := x.dist - i
  if r ≤ x.n then { x with c := x.slower x.c x.n, n := x.n - 1 }
  else if x.n + 2 ≤ r ∧ x.cmin * 256 < x.c then { x with c := x.faster x.c (x.n + 1), n := x.n + 1 }
  else x

/-- R466: v has fallen to F / (C0 * 256) or below, or to 0, with an emergency deceleration E. -/
def Axis.halted (x : Axis) (e : Nat) : Bool :=
  let d : Int := rampF ^ 2 - e * x.c ^ 2
  decide (d ≤ 0) || decide (d * (x.c0 * 256) ≤ rampF ^ 2 * x.c)

/-- R466: the next c of an emergency deceleration that goes on. -/
def Axis.brake (x : Axis) (e : Nat) : Axis := { x with c := (rneDiv (rampF ^ 2 * x.c) (rampF ^ 2 - e * x.c ^ 2)).toNat }

/-- Clocks from the first step to the last of a splice move of `dist` steps (R465, R474): `i` steps issued, `k` steps of fuel. -/
def spliceClocks : Nat → Nat → Axis → Nat
  | 0, _, _ => 0
  | k + 1, i, x => if x.dist ≤ i then 0 else
      let x := if 1 < i then x.ramp i else x
      clampInterval x.c + spliceClocks k (i + 1) x

/-- An axis about to begin a ramp of R465. -/
def Axis.ready (x : Axis) (st op dist : Nat) (up : Bool) : Axis :=
  { x with st := st, op := op, dist := dist, dir := up, rest := false, issued := 0, n := 0, c := x.c0 * 256, interval := 0, thenSplice := false }

/-! ### Ends of actions (R462, R464) -/

/-- R464: an action ends with a code; a splice move is no action. -/
def State.endAction (s : State) (a code : Nat) (cut : Bool) : State :=
  let x := s.axisOf a
  let result := 2 ^ 31 + (if cut then 2 ^ 30 else 0) + code
  let s := s.setAxis a fun x => { x with st := 0, interval := 0, thenSplice := false, result := result }
  (s.event pAXIS V.ACTION [.f 1 a, .f 1 x.op, .f 4 result, .f 4 (uInt 32 x.pos)]).raise pAXIS 2

/-- R473, R474: a splice move to SAFE_POS begins where the axis stands above it. -/
def State.spliceMove (s : State) (a : Nat) : State :=
  if (s.axisOf a).pos ≤ s.safePos then s
  else
    s.setAxis a fun x =>
      let y : Axis := { x with cfg := none, c0 := s.active AXIS.SPLICE_C0, cmin := s.active AXIS.SPLICE_CMIN, recur := true,
                               inv := bit (s.reg (AXIS.CFG a)) 1, pulse := max 10 (bits (s.reg (AXIS.CFG a)) 23 16) }
      y.ready 4 3 (x.pos - s.safePos).toNat false

/-- A ramp has issued its last step: an emergency deceleration of R473 is followed by the splice move. -/
def State.rampEnds (s : State) (a : Nat) (cut : Bool) : State :=
  let x := s.axisOf a
  if x.op = 3 then s.setAxis a fun x => { x with st := 0, interval := 0 }
  else
    let s := s.endAction a E.NONE cut
    if x.thenSplice then s.spliceMove a else s

/-! ### Starting an action (R460 to R463) -/

/-- Direction and steps of the action that the staged group asks for (R460). -/
def State.axisPlan (s : State) (a : Nat) : Int :=
  let t := sInt 32 (s.reg (AXIS.TARGET a))
  if bits (s.reg (AXIS.MODE a)) 1 0 = 0 then t - (s.axisOf a).pos else t

/-- R461, R479: a commit of group a + 1 is accepted. -/
def State.axisAllowed (s : State) (a : Nat) : Bool :=
  let x := s.axisOf a
  let op := bits (s.reg (AXIS.MODE a)) 1 0
  let d := s.axisPlan a
  let t := sInt 32 (s.reg (AXIS.TARGET a))
  s.enabled pAXIS && x.st == 0 && !s.slotsBusy && !(s.spliceAxis == a && !s.web.spliceN) &&
  (op == 1 || op == 2 || (op == 0 && x.homed && decide (0 ≤ t) && decide (t ≤ s.reg (AXIS.TRAVEL a)))) &&
  (op == 1 || !((decide (0 < d) && x.hiLatch) || (decide (d < 0) && x.loLatch))) &&
  decide (s.reg (AXIS.CMIN a) ≤ s.reg (AXIS.C0 a))

/-- What an axis takes at the start of an action (R463). -/
def State.axisTake (s : State) (a : Nat) (x : Axis) : Axis :=
  let cfg := s.reg (AXIS.CFG a)
  { x with cfg := none, recur := bit cfg 0, inv := bit cfg 1, duty := max 1 (bits cfg 7 4),
           pulse := max 10 (bits cfg 23 16), c0 := s.reg (AXIS.C0 a), cmin := s.reg (AXIS.CMIN a),
           accel := s.reg (AXIS.ACCEL a) }

/-- R460, R462, R467: the action starts. -/
def State.axisStart (s : State) (a : Nat) : State :=
  let op := bits (s.reg (AXIS.MODE a)) 1 0
  let d := s.axisPlan a
  let s := s.setAxis a (s.axisTake a)
  if op = 1 then
    let dist := s.reg (AXIS.TRAVEL a) + max 1 (bits (s.reg (AXIS.HOME_CFG a)) 15 0)
    s.setAxis a fun x => { x.ready 2 1 dist false with homed := false, c := s.reg (AXIS.HOME_INTERVAL a) * 256 }
  else if d = 0 then (s.setAxis a fun x => { x with op := op }).endAction a E.ZERO false
  else s.setAxis a fun x => x.ready 1 op d.natAbs (decide (0 < d))

/-- A COMMIT write of group a + 1 (R461, R34). -/
def State.axisCommit (s : State) (a : Nat) : State :=
  if s.axisAllowed a then ((s.commitNow pAXIS (a + 1)).axisStart a).headSync else s.commitRejected pAXIS

/-- Host software stages MODE.OP and writes group a + 1 to COMMIT. -/
def State.axisAct (s : State) (a op : Nat) : State :=
  let s := s.setReg (AXIS.MODE a) op
  (s.setReg (COMMIT pAXIS) (putField (s.reg (COMMIT pAXIS)) 7 0 (a + 1))).axisCommit a

/-- MOVE (R465). -/
def execMove (axis : Fin 4) (s : State) : Host.Outcome State Fault Refusal := .next (settle s (s.axisAct axis 0))
/-- HOME (R467). -/
def execHome (axis : Fin 4) (s : State) : Host.Outcome State Fault Refusal := .next (settle s (s.axisAct axis 1))
/-- RELATIVE (R465). -/
def execRelative (axis : Fin 4) (s : State) : Host.Outcome State Fault Refusal := .next (settle s (s.axisAct axis 2))

/-! ### Steps (R456, R465 to R467) -/

/-- POS after a step; the spec states none beyond s32 (log 3). -/
def State.stepPos (s : State) (a : Nat) : State :=
  let x := s.axisOf a
  let p := x.pos + if x.dir then 1 else -1
  if -2 ^ 31 ≤ p ∧ p < 2 ^ 31 then s.setAxis a fun x => { x with pos := p }
  else
    let f := s.fresh
    f.2.setAxis a fun x => { x with pos := sInt 32 f.1 }

/-- n after a step; the spec states none beyond u24 (log 3). -/
def State.stepN (s : State) (a : Nat) : State :=
  if (s.axisOf a).n < 2 ^ 24 then s
  else
    let f := s.fresh
    f.2.setAxis a fun x => { x with n := f.1 % 2 ^ 24 }

/-- What follows a step that is not the last of its ramp: the interval to the next one (R465 to R467). -/
def State.nextInterval (s : State) (a : Nat) : State :=
  let x := s.axisOf a
  if x.st = 3 then
    let e := s.reg (AXIS.EDECEL a)
    if x.halted e then s.rampEnds a true
    else s.setAxis a fun x => { x.brake e with interval := clampInterval (x.brake e).c }
  else
    let s := (s.setAxis a fun x => if 1 < x.issued ∧ x.st ≠ 2 then x.ramp x.issued else x).stepN a
    s.setAxis a fun x => { x with interval := clampInterval x.c }

/-- R467: homing has issued its last step. -/
def State.homed (s : State) (a : Nat) : State := (s.setAxis a fun x => { x with pos := 0, homed := true }).endAction a E.NONE false

/-- AXIS_STEP: a step pulse, and the next interval or the end (R456, R465 to R467); none while CTRL.EN is 0, the axis clock
is stopped (R617) or the axis is IDLE. -/
def State.axisStep (s : State) (a : Nat) : State :=
  let x := s.axisOf a
  if !s.enabled pAXIS || s.power.stopped.contains 6 || x.st == 0 then s
  else
    let s := (s.stepPos a).emit (.step a (x.dir != x.inv) (10 * x.pulse))
    let s := s.setAxis a fun x => { x with issued := x.issued + 1 }
    let s :=
      if x.issued + 1 < x.dist then s.nextInterval a
      else if x.st = 2 then s.homed a
      else s.rampEnds a false
    s.headSync

/-- AXIS_STEP (R465). -/
def execAxisStep (axis : Fin 4) (s : State) : Host.Outcome State Fault Refusal := .next (settle s (s.axisStep axis))

/-! ### STOP (R466) -/

/-- A write of STOP with ACT at 1 (R466). -/
def State.axisStop (s : State) (a : Nat) : State :=
  let x := s.axisOf a
  if x.st = 1 then s.setAxis a fun x => { x with st := 3 }
  else if x.st = 2 then (s.endAction a E.NONE true).headSync
  else s

/-- AXIS_STOP (R466). -/
def execAxisStop (axis : Fin 4) (s : State) : Host.Outcome State Fault Refusal := .next (settle s ((s.wakeEvent wakeREGISTER).axisStop axis))

/-! ### Limits (R468 to R472) -/

/-- R468: LIMIT_LO is masked. -/
def State.loMasked (s : State) (a : Nat) : Bool :=
  let x := s.axisOf a
  x.st == 2 || (x.homed && decide (x.pos ≤ bits (s.reg (AXIS.HOME_CFG a)) 31 16))

/-- R469, R471: the axis that runs stops, with the limit's code; a splice move writes no action record. -/
def State.limitStops (s : State) (a code : Nat) : State :=
  let x := s.axisOf a
  if x.st = 0 then s
  else
    let s := s.setAxis a fun x => { x with homed := false }
    if x.op = 3 then
      s.setAxis a fun x => { x with st := 0, interval := 0, result := bits x.result 31 31 * 2 ^ 31 + 2 ^ 30 + code }
    else s.endAction a code true

/-- DEBOUNCE in ns: 0 acts as 1 us (R479). -/
def State.debounce (s : State) (a : Nat) : Nat := max 1 (bits (s.axisCfg a) 31 24) * 1000

/-- `ns` pass for a limit input (R470). -/
def LimitIn.pass (l : LimitIn) (ns : Nat) : LimitIn := { l with age := min 255000 (l.age + ns), win := l.win - ns }
/-- At least `us` have passed since the last change of a limit input. -/
def LimitIn.atLeast (l : LimitIn) (us : Nat) : LimitIn := l.pass (us * 1000 - l.age)

/-- A limit input of an axis. -/
def Axis.limit (x : Axis) (hi : Bool) : LimitIn := if hi then x.hi else x.lo
/-- A limit input of an axis changed. -/
def State.setLimit (s : State) (a : Nat) (hi : Bool) (l : LimitIn) : State :=
  s.setAxis a fun x => if hi then { x with hi := l } else { x with lo := l }

/-- An event on a limit input (R468, R469, R471). -/
def State.limitEvent (s : State) (a : Nat) (hi : Bool) : State :=
  if !hi && s.loMasked a then s
  else
    let s := s.setAxis a fun x => if hi then { x with hiLatch := true } else { x with loLatch := true }
    let code := if (s.axisOf a).st = 2 then E.LIMIT_DURING_HOME else E.LIMIT_TRIP
    let s := ((s.error pAXIS code [.f 1 a]).raise pAXIS 3).bump (AXIS.TRIPS a) 1
    (s.limitStops a code).headSync

/-- LIMIT_TRIP: a limit input changes, `us` or more after its last change. A change to active while no window is open is an event and opens one;
every change within the window belongs to the same event (R470). -/
def State.limitTrip (s : State) (a : Nat) (hi active : Bool) (us : Nat) : State :=
  let l := ((s.axisOf a).limit hi).atLeast us
  if l.level = active then s.setLimit a hi l
  else if active && l.win == 0 then (s.setLimit a hi { level := true, age := 0, win := s.debounce a }).limitEvent a hi
  else s.setLimit a hi { l with level := active, age := 0 }

/-- LIMIT_TRIP (R471). -/
def execLimitTrip (axis : Fin 4) (hi active : Bool) (us : Nat) (s : State) : Host.Outcome State Fault Refusal :=
  .next (settle s (s.limitTrip axis hi active us))

/-- R472: a limit input has been inactive for DEBOUNCE. -/
def State.limitQuiet (s : State) (a : Nat) (hi : Bool) : Bool :=
  let l := (s.axisOf a).limit hi
  !l.level && decide (s.debounce a ≤ l.age)

/-- A write of LIMIT_CLEAR: each latch named is cleared where its own input has been inactive long enough (R472). -/
def State.clearLatches (s : State) (a : Nat) (hi lo : Bool) : State :=
  let h := hi && s.limitQuiet a true
  let l := lo && s.limitQuiet a false
  s.setAxis a fun x => { x with hiLatch := x.hiLatch && !h, loLatch := x.loLatch && !l }

/-- LIMIT_CLEAR: the write lands when at least so many us have passed since the last change of each input (R472). -/
def State.limitClear (s : State) (a : Nat) (hi lo : Bool) (hiUs loUs : Nat) : State :=
  (s.setAxis a fun x => { x with hi := x.hi.atLeast hiUs, lo := x.lo.atLeast loUs }).clearLatches a hi lo

/-- LIMIT_CLEAR (R472). -/
def execLimitClear (axis : Fin 4) (hi lo : Bool) (hiUs loUs : Nat) (s : State) : Host.Outcome State Fault Refusal :=
  .next (settle s ((s.wakeEvent wakeREGISTER).limitClear axis hi lo hiUs loUs))

/-- `ns` pass for the limit inputs of every axis; none while the axis clock is stopped (R617). -/
def State.limitsPass (s : State) (ns : Nat) : State :=
  if s.power.stopped.contains 6 then s else { s with axes := s.axes.map fun x => { x with lo := x.lo.pass ns, hi := x.hi.pass ns } }

/-! ### The splice lift (R473 to R477) -/

/-- R473: what the splice axis does at the fall. -/
def State.spliceActs (s : State) : State :=
  let a := s.spliceAxis
  let x := s.axisOf a
  let s := ((s.event pAXIS V.SPLICE [.f 4 (uInt 32 x.pos), .lt s.lineTime]).raise pAXIS 4).bump AXIS.SPLICES 1
  if x.st = 0 ∧ x.homed then s.spliceMove a
  else if x.st = 1 ∨ x.st = 3 then s.setAxis a fun x => { x with st := 3, thenSplice := true }
  else s

/-- SPLICE: a filtered SPLICE_N fall (R473, R477). -/
def State.splice (s : State) : State :=
  let s : State := { s with web := { s.web with spliceN := false } }
  let s := if s.slotsBusy then s.lastingFault 9 7 else s
  (if s.spliceEn then s.spliceActs else s).headSync

/-- SPLICE (R473). -/
def execSplice (s : State) : Host.Outcome State Fault Refusal := .next (settle s (s.wakes wakeSPLICE).splice)

/-- SPLICE_N_RISE: the axis stays where it is, and the condition of the fault ends (R474, R477). -/
def State.spliceNRise (s : State) : State :=
  ({ s with web := { s.web with spliceN := true } } : State).faultEnds 9

/-- SPLICE_N_RISE (R474). -/
def execSpliceNRise (s : State) : Host.Outcome State Fault Refusal := .next (settle s s.spliceNRise)

/-- DIR_REST: the splice axis takes its rest level (R475). -/
def State.dirRest (s : State) (a : Nat) : State :=
  if s.spliceEn && s.spliceAxis == a && (s.axisOf a).st == 0 then
    s.setAxis a fun x => { x with dir := false, inv := bit (s.axisCfg a) 1, rest := true }
  else s

/-- R475: a splice axis at its rest level follows a write of DIR_INV. -/
def State.dirFollows (s : State) (a : Nat) : State := if (s.axisOf a).rest then s.dirRest a else s

/-- DIR_REST (R475). -/
def execDirRest (axis : Fin 4) (s : State) : Host.Outcome State Fault Refusal := .next (settle s (s.dirRest axis))

/-! ### Commit group 5 (R476, R479) -/

/-- The splice move time of SPAN steps in clocks, with the staged values; a span of more than 981 steps takes above 4,900 us. -/
def State.spliceTime (s : State) : Nat :=
  let x : Axis := { c0 := s.reg AXIS.SPLICE_C0, cmin := s.reg AXIS.SPLICE_CMIN, recur := true }
  let n := s.reg AXIS.SPAN
  if 981 < n then 490001 else if n = 0 then 0 else spliceClocks n 1 (x.ready 4 3 n false)

/-- R479: a commit of group 5 is accepted. -/
def State.spliceAllowed (s : State) : Bool :=
  let c := s.reg AXIS.SPLICE_CMIN
  let travel := s.reg (AXIS.TRAVEL (bits (s.reg AXIS.SPLICE_CFG) 1 0))
  s.enabled pAXIS && decide (500 ≤ c) && decide (c ≤ s.reg AXIS.SPLICE_C0) && decide (s.reg AXIS.SAFE_POS + s.reg AXIS.SPAN ≤ travel) &&
  decide (s.spliceTime ≤ 490000) && !s.slotsBusy && s.axes.all fun x => x.st != 4

/-- A COMMIT write of group 5 (R476, R479); an IDLE axis that it makes the splice axis takes its rest level (R475). -/
def State.spliceCommit (s : State) : State :=
  if s.spliceAllowed then
    let s := (s.commitNow pAXIS 5).setReg AXIS.SPLICE_TIME (s.spliceTime / 100)
    (s.dirRest s.spliceAxis).headSync
  else s.commitRejected pAXIS

/-! ### Registers (R479) -/

/-- ASTATE. -/
def Axis.astate (x : Axis) : Nat :=
  let b (v : Bool) (i : Nat) : Nat := if v then 2 ^ i else 0
  x.st * 2 ^ 29 + b x.homed 28 + b x.loLatch 27 + b x.hiLatch 26 + b x.lo.level 25 + b x.hi.level 24 + x.interval

/-- What a read of a derived AXIS register returns. -/
def State.readAxis (s : State) (a : Nat) : Option Nat :=
  if a = STATUS pAXIS then some (s.reg a + (if s.headSafe then 16 else 0) + if s.web.spliceN then 0 else 32)
  else if AXIS.CFG 0 ≤ a ∧ a < AXIS.CFG 4 then
    let i := (a - AXIS.CFG 0) / 0x40
    let x := s.axisOf i
    if a = AXIS.POS i then some (uInt 32 x.pos) else if a = AXIS.ASTATE i then some x.astate
    else if a = AXIS.RESULT i then some x.result else none
  else none

end Sys2Proof.Machine
end

