-- ==== Sys2Proof/Machine/Chk.lean ====
section
/-! DEFINITION. Check-value units (R563 to R577). -/

namespace Sys2Proof.Machine

/-- Unit `u`, and unit `u` changed. -/
def State.chkOf (s : State) (u : Nat) : ChkUnit := s.chk.unit.getD u {}
def State.setChk (s : State) (u : Nat) (f : ChkUnit → ChkUnit) : State := { s with chk := { s.chk with unit := modAt s.chk.unit u f } }

/-- SUBST: EN and FOR (R575). -/
def State.substEn (s : State) : Bool := bit (s.reg CHK.SUBST) 31
def State.substFor (s : State) : Nat := bits (s.reg CHK.SUBST) 2 0

/-- The physical unit that serves a unit number (R575). -/
def State.physUnit (s : State) (u : Nat) : Nat := if s.substEn && s.substFor == u then 8 else u
/-- Unit number 8 is unavailable while it serves another number (R575). -/
def State.unitUnavailable (s : State) (u : Nat) : Bool := s.substEn && u == 8

/-- R573: the album scrub owns a unit: the one its scrub runs on, else the one of the latest stamp that it began, and before the first one the
one SCRUB.UNIT names: a new UNIT takes effect at the next stamp. -/
def State.albumOwns (s : State) (u : Nat) : Bool :=
  match s.chk.scrub with
  | some x => x.unit == u
  | none => bit (s.reg ALBUM.SCRUB) 31 && s.chk.album.getD (bits (s.reg ALBUM.SCRUB) 19 16) == u

/-- BUSY of a unit: a scan, a scrub or a test runs. -/
def State.chkBusy (s : State) (u : Nat) : Bool := (s.chkOf u).scan.isSome || (s.chkOf u).testing || s.chk.scrub.any fun x => x.unit == u

/-- FAILED of a unit number. -/
def State.chkFailed (s : State) (u : Nat) : Bool := s.chk.failed.getD (s.physUnit u) false

/-- Parameters of a scan: those of a preset, or the custom ones (R564). -/
def chkParams (cfg poly init xorOut : Nat) : CrcParams :=
  if bits cfg 31 28 = 0 then ⟨bits cfg 22 16, poly, init, bit cfg 0, bit cfg 1, xorOut⟩ else crcPreset (bits cfg 31 28)
def Scan.params (x : Scan) : CrcParams := chkParams x.cfg x.poly x.init x.xorOut

/-- The running value of an idle unit (R572, R573). -/
def ChkUnit.shown (c : ChkUnit) : Nat := c.hostRun.getD c.run

/-- The registers of a unit as a start takes them (R565). -/
def State.scanOf (s : State) (u : Nat) (fresh : Bool) : Scan :=
  let x : Scan := { cfg := s.reg (CHK.CFG u), poly := s.reg64 (CHK.POLY_LO u) (CHK.POLY_HI u), init := s.reg64 (CHK.INIT_LO u) (CHK.INIT_HI u),
                    xorOut := s.reg64 (CHK.XOROUT_LO u) (CHK.XOROUT_HI u), addr := s.reg64 (CHK.ADDR_LO u) (CHK.ADDR_HI u) % 2 ^ 36,
                    len := s.reg (CHK.LEN u), expect := s.reg64 (CHK.EXPECT_LO u) (CHK.EXPECT_HI u), run := (s.chkOf u).shown }
  if fresh then { x with run := crcStart x.params } else x

/-- R566: a start is refused; every start is refused while CTRL.EN is 0 (R576). -/
def State.startRefused (s : State) (u : Nat) : Bool :=
  let x := s.scanOf u false
  let preset := bits x.cfg 31 28
  let w := bits x.cfg 22 16
  s.chkBusy u || s.chkFailed u || s.albumOwns u || s.unitUnavailable u || !s.enabled pCHK || decide (5 < preset) ||
  (preset == 0 && (decide (w < 1) || decide (64 < w))) || !mapped x.addr x.len

/-- RESULT of STAT set, its other bits kept. -/
def State.chkResult (s : State) (u r : Nat) : State := s.setReg (CHK.STAT u) (putField (s.reg (CHK.STAT u)) 2 0 r)

/-- R565, R566: a start of a scan. -/
def State.chkStart (s : State) (u : Nat) (fresh : Bool) : State :=
  if s.startRefused u then s.chkResult u 4
  else
    let x := s.scanOf u fresh
    s.setChk u fun c => { c with scan := some x, hostRun := none }

/-- FRESH (R565). -/
def execFresh (unit : Fin 9) (s : State) : Host.Outcome State Fault Refusal := .next (settle s ((s.wakeEvent wakeREGISTER).chkStart unit true))
/-- CONTINUE (R565). -/
def execContinue (unit : Fin 9) (s : State) : Host.Outcome State Fault Refusal := .next (settle s ((s.wakeEvent wakeREGISTER).chkStart unit false))

/-- R565, R570: a scan ends with a result, its bytes folded, its running value and RESULT code; it requests on CHK_DONE[u]. -/
def State.scanEnd (s : State) (u run value scanned code : Nat) : State :=
  let s := s.setChk u fun c => { c with scan := none, run := run }
  let s := ((s.setReg (CHK.RESULT_LO u) (value % 2 ^ 32)).setReg (CHK.RESULT_HI u) (value / 2 ^ 32)).setReg (CHK.SCANNED u) scanned
  let s := (s.setReg (CHK.STAT u) (putBit (s.reg (CHK.STAT u)) 31 true)).chkResult u code
  ((s.bump CHK.SCANS 1).raise pCHK 2).paceRequest (3 + u)

/-- R569: the compare of a unit, and its record where the values differ. -/
def State.chkCompare (s : State) (u : Nat) (x : Scan) (value : Nat) : State :=
  let eq := value == x.expect
  let s := s.setReg (CHK.STAT u) (putBit (s.reg (CHK.STAT u)) 27 eq)
  if eq then s
  else ((s.error pCHK E.COMPARE_FAIL [.f 1 u, .f 5 x.addr, .f 4 x.len, .f 8 value, .f 8 x.expect]).bump CHK.MISMATCHES 1).raise pCHK 3

/-- The running value after the first `n` bytes of a scan (R563). -/
def State.runAfter (s : State) (x : Scan) (n : Nat) : Nat := (s.readMem x.addr n).foldl (crcFold x.params) x.run

/-- R565 to R569: a scan runs to its end. -/
def State.scanWhole (s : State) (u : Nat) (x : Scan) : State :=
  let run := s.runAfter x x.len
  let value := crcResult x.params run
  let cmp := bit x.cfg 2
  let bad := cmp && value != x.expect
  let s := if cmp then s.chkCompare u x value else s
  s.scanEnd u run value x.len (if bad then 2 else if x.len = 0 then 1 else 0)

/-- The device address of a failed read; a unit that only reads loses no write (R516). -/
def failedRead : MemFault → Option Nat
  | .poisoned a _ => some a
  | .uncorrectable a => some (scratchBase + a)
  | _ => none

/-- A scan reads n bytes at a device address in rising order: the first read that fails, among those reported and the words that show a double-bit
error, ends it; such a word is recorded then, unless it was reported (R518, R567). -/
def State.scanReads (s : State) (a n : Nat) (fs : List MemFault) : Option Nat × State :=
  let bad := (fs.filterMap failedRead).filter fun x => decide (a ≤ x) && decide (x < a + n)
  match (bad ++ (s.badAt a n).map (scratchBase + ·)).min? with
  | none => (none, s)
  | some x =>
    let m := s.meets [(a, min n (x / 256 * 256 + 256 - a))] { faults := fs }
    (some x, (m.faults.drop fs.length).foldl (fun s f => s.memFault .checkUnit mCHK f) s)

/-- R567: a read of a scan fails at a device address; RESULT and the running value are undefined (log 3), and SCANNED counts the bytes before
the 256-byte unit that failed. -/
def State.scanMemError (s : State) (u addr len x : Nat) : State :=
  let (lo, s) := s.fresh
  let (hi, s) := s.fresh
  let (lo', s) := s.fresh
  let (hi', s) := s.fresh
  s.scanEnd u (lo + hi * 2 ^ 32) (lo' + hi' * 2 ^ 32) (min len (x / 256 * 256 - addr)) 5

/-- CHK_SCAN_DONE (R565, R567), once the memory of the scan serves requests (R500, R505). -/
def State.chkScanDone (s : State) (u : Nat) (mem : MemRep) : State :=
  match (s.chkOf u).scan with
  | none => s
  | some x =>
    if !s.served [(x.addr, x.len)] then s
    else
      let (bad, s) := ((s.touch [(x.addr, x.len)]).memReport .checkUnit mCHK mem).scanReads x.addr x.len mem.faults
      match bad with
      | some a => s.scanMemError u x.addr x.len a
      | none => s.scanWhole u x

/-- CHK_SCAN_DONE (R565). -/
def execChkScanDone (unit : Fin 9) (mem : MemRep) (s : State) : Host.Outcome State Fault Refusal :=
  .next (settle s (s.chkScanDone unit mem))

/-- R571: a running scan that has folded some bytes ends at the next 64-byte boundary, counted from its address, or at its end; one that a word
with a double-bit error stands in the way of has ended there (R518, R567). -/
def State.chkStop (s : State) (u folded : Nat) : State :=
  match (s.chkOf u).scan with
  | none => s
  | some x =>
    let n := min x.len ((folded + 63) / 64 * 64)
    let (bad, s) := (s.touch [(x.addr, n)]).scanReads x.addr n []
    match bad with
    | some a => s.scanMemError u x.addr x.len a
    | none =>
      let run := s.runAfter x n
      s.scanEnd u run (crcResult x.params run) n 3

/-- STOP (R571). -/
def execStop (unit : Fin 9) (folded : Nat) (s : State) : Host.Outcome State Fault Refusal :=
  .next (settle s ((s.wakeEvent wakeREGISTER).chkStop unit folded))

/-- R574: a test starts on an idle unit. -/
def State.chkTest (s : State) (u : Nat) : State :=
  if s.chkBusy u || s.unitUnavailable u then s else s.setChk u fun c => { c with testing := true }

/-- TEST (R574). -/
def execTest (unit : Fin 9) (s : State) : Host.Outcome State Fault Refusal := .next (settle s ((s.wakeEvent wakeREGISTER).chkTest unit))

/-- R574: a test ends. -/
def State.chkTestDone (s : State) (u : Nat) (pass : Bool) : State :=
  if (s.chkOf u).testing then
    let s := s.setChk u fun c => { c with testing := false }
    if pass then s
    else
      let s : State := { s with chk := { s.chk with failed := s.chk.failed.set (s.physUnit u) true } }
      (s.event pCHK V.UNIT_FAILED [.f 1 u]).raise pCHK 4
  else s

/-- CHK_TEST_DONE (R574). -/
def execChkTestDone (unit : Fin 9) (pass : Bool) (s : State) : Host.Outcome State Fault Refusal :=
  .next (settle s (s.chkTestDone unit pass))

/-- R574: a reset of the CHK block starts the test of every unit. -/
def chkReset : Chk := { unit := List.replicate 9 { testing := true } }

/-- R572: a write of one half of the running value; while the album scrub owns the unit it waits for host software's next own start (R573). -/
def State.runWrite (s : State) (u : Nat) (hi : Bool) (v : Nat) : State :=
  if s.chkBusy u then s.bump CHK.RUN_WRITES_DROPPED 1
  else
    let own := s.albumOwns u
    s.setChk u fun c =>
      let r := if hi then putField c.shown 63 32 v else putField c.shown 31 0 v
      if own then { c with hostRun := some r } else { c with run := r, hostRun := none }

/-- RUN_WRITE (R572). -/
def execRunWrite (unit : Fin 9) (hi : Bool) (value : Word) (s : State) : Host.Outcome State Fault Refusal :=
  .next (settle s ((s.wakeEvent wakeREGISTER).runWrite unit hi value.toNat))

/-- Bits of SUBST. -/
def substMask : Nat := 0x80000007

/-- R575: SUBST takes effect only while the physical units that it concerns before or after the write are idle; `old` is its value before the write. -/
def State.substWrite (s : State) (old v : Nat) : State :=
  let v := v &&& substMask
  let busy (x : Nat) : Bool := bit x 31 && (s.chkBusy (bits x 2 0) || s.chkBusy 8)
  if busy old || busy v then (s.setReg CHK.SUBST old).bump CHK.RUN_WRITES_DROPPED 1
  else s.setReg CHK.SUBST v

/-- SUBST_WRITE (R575). -/
def execSubstWrite (value : Word) (s : State) : Host.Outcome State Fault Refusal :=
  .next (settle s ((s.wakeEvent wakeREGISTER).substWrite (s.reg CHK.SUBST) value.toNat))

/-- A STOP of unit `u` lands at a boundary that a register write does not bring (log 3). -/
def State.stopSomewhere (s : State) (u : Nat) : State :=
  match (s.chkOf u).scan with
  | none => s
  | some x => let (k, s) := s.fresh; s.chkStop u (64 * (k % (ceilDiv x.len 64 + 1)))

/-- The scans of a scrub stop after `n` bytes of its stamp: those of whole frames before have ended, and the one that runs ends as after a STOP
(R571, R576). -/
def State.scrubStops (s : State) (u run n : Nat) : List (Nat × Nat) → State
  | [] => s
  | f :: fs =>
    let k := min n f.2
    let run := (s.readMem f.1 k).foldl (crcFold (crcPreset 1)) run
    if f.2 ≤ n && !fs.isEmpty then (s.scanEnd u run (crcResult (crcPreset 1) run) k 0).scrubStops u run (n - f.2) fs
    else s.scanEnd u run (crcResult (crcPreset 1) run) k 3

/-- R576: while CTRL.EN is 0 scans in progress end as after a STOP, at a boundary the spec leaves open (log 3), that of the album scrub too. -/
def State.chkDisable (s : State) : State :=
  let s := (List.range 9).foldl State.stopSomewhere s
  match s.chk.scrub with
  | none => s
  | some x =>
    let (k, s) := s.fresh
    let n := 64 * (k % (ceilDiv (sumNat (x.frames.map (·.2))) 64 + 1))
    ({ s with chk := { s.chk with scrub := none } } : State).scrubStops x.unit (crcStart (crcPreset 1)) n x.frames

/-- The register of CHK at a page offset: unit number and offset in the unit. -/
def chkUnitOf (a : Nat) : Option (Nat × Nat) :=
  if CHK.CFG 0 ≤ a ∧ a < CHK.CFG 9 then some ((a - CHK.CFG 0) / 0x80, (a - CHK.CFG 0) % 0x80) else none

/-- CMD of a unit (R576). STOP of a write lands at a boundary the spec leaves open. -/
def State.chkCmd (s : State) (u v : Nat) : State :=
  if bit v 8 then
    match bits v 1 0 with
    | 0 => s.chkStart u true
    | 1 => s.chkStart u false
    | 2 => s.stopSomewhere u
    | _ => s.chkTest u
  else s

/-- A write of a CHK register, after the store of its bits; `old` is the register before the write. -/
def State.writeChk (s : State) (a old v : Nat) : State :=
  if a = CHK.SUBST then s.substWrite old v
  else if a = CTRL pCHK then (if bit v 0 then s else s.chkDisable)
  else match chkUnitOf a with
    | some (u, 0x30) => s.chkCmd u v
    | some (u, 0x38) => s.runWrite u false v
    | some (u, 0x3C) => s.runWrite u true v
    | _ => s

/-- The running value of a scrub after `n` bytes of its stamp. -/
def ScrubRun.runAfter (x : ScrubRun) (s : State) (n : Nat) : Nat :=
  ((x.frames.flatMap fun f => s.readMem f.1 f.2).take n).foldl (crcFold (crcPreset 1)) (crcStart (crcPreset 1))

/-- The running value that RUN shows: at some 64-byte boundary while a scan runs, one of the album scrub too (R572, log 3). -/
def State.runShown (s : State) (u : Nat) : Nat :=
  let k := (Config.freeWord s.free).toNat
  match (s.chkOf u).scan, s.chk.scrub.filter fun x => x.unit == u with
  | some x, _ => s.runAfter x (64 * (k % (x.len / 64 + 1)))
  | none, some x => x.runAfter s (64 * (k % (sumNat (x.frames.map (·.2)) / 64 + 1)))
  | none, none => (s.chkOf u).shown

/-- What a read of a derived CHK register returns. -/
def State.readChk (s : State) (a : Nat) : Option Nat :=
  if a = STATUS pCHK then some (s.reg a + if s.substEn then 16 else 0)
  else match chkUnitOf a with
    | some (u, 0x34) =>
      some (s.reg a + (if s.chkBusy u then 2 ^ 30 else 0) + (if s.albumOwns u then 2 ^ 29 else 0) + if s.chkFailed u then 2 ^ 28 else 0)
    | some (u, 0x38) => some (s.runShown u % 2 ^ 32)
    | some (u, 0x3C) => some (s.runShown u / 2 ^ 32)
    | _ => none

end Sys2Proof.Machine
end

