-- ==== Sys2Proof/Machine/Cmp.lean ====
section
/-! DEFINITION. The compressors and the packing of ledger segments (R101 to R113, R593). -/

namespace Sys2Proof.Machine

/-- Clients of a compressor, in the order of their priority (R101). -/
def clLEDGER : Nat := 1
def clALBUM : Nat := 2
def clRING : Nat := 3
def clREGISTER : Nat := 4

/-- Compressor `c`, and compressor `c` changed. -/
def State.cmpOf (s : State) (c : Nat) : CmpUnit := s.cmp.getD c {}
def State.setCmp (s : State) (c : Nat) (f : CmpUnit → CmpUnit) : State := { s with cmp := modAt s.cmp c f }

/-- The compressor that packs ledger segments (R111). -/
def State.ledgerUnit (s : State) : Nat := if bit (s.reg (CTRL pCMP)) 1 then 1 else 0

/-- Compressor `c` runs or holds a register job (R111, R112). -/
def State.registerJob (s : State) (c : Nat) : Bool := (s.cmpOf c).waits || (s.cmpOf c).run.any (·.client == clREGISTER)

/-! ### Starting (R101, R112) -/

/-- START with ACT at 1. -/
def State.cmpStart (s : State) (c : Nat) : State := if s.registerJob c then s else s.setCmp c fun u => { u with waits := true }

/-- CMP_START (R112). -/
def execCmpStart (unit : Fin 2) (s : State) : Host.Outcome State Fault Refusal := .next (settle s ((s.wakeEvent wakeREGISTER).cmpStart unit))

/-- The request of client 1: the closed segment goes from the ring, where it may wrap, into the pack area as one block with STRIDE 32 (R593).
One compressor packs it. -/
def State.packJob (s : State) : Option CmpReq :=
  match s.led.segment with
  | none => none
  | some g =>
    if g.packing && !(s.cmp.any fun u => u.run.any (·.client == clLEDGER)) then
      some { src := s.ringBase + 32 * (s.oldest % s.ringCap), srcLen := 32 * g.count, dst := s.packArea, dstLen := 2 ^ 22, param := 0xC0000020 }
    else none

/-- The descriptor of client 3 that compressor `c` serves next. -/
def Desc.cmpWaits (d : Desc) (c : Nat) : Bool := d.bind == 5 + c && d.done.isNone && !d.fault && !d.poisoned

/-- The ring that has a request for compressor `c`; where descriptors wait on several, which RING_SEL has named one after another, the lowest
(DESIGN CHOICE, log 73). -/
def State.cmpRing (s : State) (c : Nat) : Option Nat := (List.range 32).find? fun n => (s.ringOf n).taken.any fun d => d.cmpWaits c

/-- The request of client 3: the oldest one on that ring. -/
def State.ringJob (s : State) (c : Nat) : Option CmpReq :=
  ((s.cmpRing c).bind fun n => (s.ringOf n).taken.find? fun d => d.cmpWaits c).map fun d =>
    { src := d.hostAddr, srcLen := d.len, dst := d.devAddr, dstLen := d.tag, param := d.param }

/-- The request of client 4: the active group of compressor `c` (R112). -/
def State.registerReq (s : State) (c : Nat) : Option CmpReq :=
  if (s.cmpOf c).waits then
    some { src := s.active64 (CMP.SRC_LO c) (CMP.SRC_HI c), srcLen := s.active (CMP.SRC_LEN c),
           dst := s.active64 (CMP.DST_LO c) (CMP.DST_HI c), dstLen := s.active (CMP.DST_LEN c), param := s.active (CMP.PARAM c) }
  else none

/-- The client and waiting request of highest priority that compressor `c` may serve (R101). Album export comes with the command: no rule
makes a request of it (log 60). -/
def State.cmpNext (s : State) (c : Nat) (album : Option CmpReq) : Option (Nat × CmpReq) :=
  [(clLEDGER, if s.ledgerUnit = c then s.packJob else none), (clALBUM, album), (clRING, s.ringJob c), (clREGISTER, s.registerReq c)].findSome?
    fun p => p.2.map fun q => (p.1, q)

/-- Device memory that holds the source of a job: a segment lies in the ring, where it may wrap. -/
def State.cmpSources (s : State) (client : Nat) (q : CmpReq) : List (Nat × Nat) :=
  if client = clLEDGER then s.ringRegions s.oldest (q.srcLen / 32) else [(q.src, q.srcLen)]

/-- The source of a job, of which units whose read failed give bytes that the spec leaves open (log 3). -/
def State.cmpSource (s : State) (client : Nat) (q : CmpReq) (fs : List MemFault) : List Byte × State :=
  if client = clLEDGER then s.readRegions fs (s.cmpSources client q)
  else
    let (bs, s) := s.readDev q.src q.srcLen
    s.undefined q.src bs (readFails fs)

/-- CMP_TAKE: an idle compressor takes a job while CTRL.EN is 1, once the memory of its source serves requests (R101, R500, R505). -/
def State.cmpTake (s : State) (c : Nat) (album : Option CmpReq) (mem : MemRep) : State :=
  if s.enabled pCMP && (s.cmpOf c).run.isNone then
    match s.cmpNext c album with
    | none => s
    | some (client, q) =>
      let rs := if q.srcLen = 0 then [] else s.cmpSources client q
      if !s.served rs then s
      else
        let mem := s.meets rs mem
        let ring := if client = clRING then s.cmpRing c else none
        let (bs, s) := ((s.touch rs).memReport .compressor mCMP mem).cmpSource client q mem.faults
        s.setCmp c fun u => { u with run := some { client := client, req := q, data := bs, ring := ring, bad := !mem.faults.isEmpty },
                                     waits := u.waits && client != clREGISTER }
  else s

/-- CMP_TAKE (R101). -/
def execCmpTake (unit : Fin 2) (album : Option CmpReq) (mem : MemRep) (s : State) : Host.Outcome State Fault Refusal :=
  .next (settle s (s.cmpTake unit album mem))

/-! ### The end of a job (R102 to R107) -/

/-- R103: the destination of a job that failed; a word lost to port A keeps its data (R516). -/
def State.cmpSpoil (s : State) (q : CmpReq) (fs : List MemFault) : State :=
  let k := if 12 ≤ q.dstLen then 12 else 0
  let (bs, s) := s.freshBytes (q.dstLen - k)
  s.storeDev mCMP q.dst (List.replicate k 0xFF ++ bs) fs

/-- How a job ended: its code, output length and source check value (R103, R105, R107). -/
structure CmpEnd where
  code : Nat
  len : Nat
  check : Nat
  deriving DecidableEq, Repr

/-- The end of a job that failed: the spec states no check value for it (log 3). -/
def State.cmpFail (s : State) (q : CmpReq) (fs : List MemFault) (code : Nat) : CmpEnd × State :=
  let (f, s) := (s.cmpSpoil q fs).fresh
  (⟨code, 0, f⟩, s)

/-- R105: the output read back from the destination decodes to the source as read again. -/
def State.cmpVerify (s : State) (j : CmpJob) (n : Nat) : Bool × State :=
  let (back, s) := s.readDev j.req.dst n
  let (src, s) := s.cmpSource j.client j.req []
  let r := decodePayload back j.req.srcLen (crc32c src) true false
  (r.code == E.NONE && r.out == src, s)

/-- The destination has room for the first block of a job (R102). -/
def firstBlockFits (j : CmpJob) : Bool := (cBlocks 1 (cmpBlock j.req.param) (bits j.req.param 23 0) j.req.dstLen [] j.data []).isSome

/-- The job runs: its output is stored and checked (R102, R105). The check runs one block behind the encoder, so a difference that it finds, a
memory fault on the way among them, is detected before the destination runs out, once a block has been written (R106); `equal` says that the
hardware of the check found none. -/
def State.cmpRun (s : State) (j : CmpJob) (equal : Bool) (fs : List MemFault) : CmpEnd × State :=
  let q := j.req
  if q.srcLen = 0 then (⟨E.ZERO, 0, 0⟩, s)
  else if !firstBlockFits j then s.cmpFail q fs E.OUTPUT_FULL
  else if !equal then s.cmpFail q fs E.VERIFY_FAIL
  else match compress j.data q.dstLen q.param with
    | none => s.cmpFail q fs E.OUTPUT_FULL
    | some out =>
      let (same, s) := (s.storeDev mCMP q.dst out fs).cmpVerify j out.length
      if same then (⟨E.NONE, out.length, crc32c j.data⟩, s) else s.cmpFail q fs E.VERIFY_FAIL

/-- Bytes beyond whole KiB of the source read and the output written (R111). A failed job has read some part of its source (log 3). -/
def State.cmpCount (s : State) (c : Nat) (j : CmpJob) (e : CmpEnd) : State :=
  let ok := e.code = E.NONE ∨ e.code = E.ZERO
  let f := s.fresh
  let n := if ok then j.req.srcLen else f.1 % (j.req.srcLen + 1)
  let s := if ok then s else f.2
  let i := (s.cmpOf c).bytesIn + n
  let o := (s.cmpOf c).bytesOut + e.len
  (((s.setCmp c fun u => { u with bytesIn := i % 1024, bytesOut := o % 1024 }).bump (CMP.BYTES_IN c) (i / 1024)).bump
    (CMP.BYTES_OUT c) (o / 1024)).bump (CMP.JOBS c) 1

/-- R106, R593: a failed job latches its code and is recorded, but one of segment packing has no record: its code latches now, with an
ERR_SEQ that no record gives (log 3). -/
def State.cmpFailed (s : State) (c : Nat) (j : CmpJob) (code : Nat) : State :=
  let s := (s.bump (CMP.FAILS c) 1).raise pCMP 4
  if j.client = clLEDGER then
    let (q, s) := s.fresh
    s.latchErr pCMP code q
  else s.error pCMP code [.f 1 j.client, .f 2 code, .f 5 j.req.src, .f 5 j.req.dst]

/-- R593: the packing of a segment ends. -/
def State.packEnd (s : State) (j : CmpJob) (e : CmpEnd) : State :=
  match s.led.segment with
  | none => s
  | some g =>
    if !g.packing || j.req.srcLen != 32 * g.count then s
    else if e.code = E.NONE then
      { s with led := { s.led with segment := some { g with packing := false, packed := some e.len } } }
    else ({ s with led := { s.led with segment := some { g with packing := false } } } : State).bump LEDGER.PACK_FAILS 1

/-- The oldest request of compressor `c` on a ring has its outcome (R541, R557). -/
def doneFirst (c : Nat) (e : CmpEnd) : List Desc → List Desc
  | [] => []
  | d :: ds => if d.cmpWaits c then { d with done := some (e.code, e.len, e.check) } :: ds else d :: doneFirst c e ds

/-- R101: the request of ring `n` that the job came from: the oldest one of its compressor. -/
def State.ringEnd (s : State) (c : Nat) (e : CmpEnd) : Option Nat → State
  | none => s
  | some n => s.setRing n fun r => { r with taken := doneFirst c e r.taken }

/-- R112: a register job completes, with its results, its interrupt and its request line (R555). -/
def State.registerEnd (s : State) (c : Nat) (e : CmpEnd) : State :=
  let s := ((s.setReg (CMP.RESULT_STATUS c) (2 ^ 31 + e.code)).setReg (CMP.RESULT_LEN c) e.len).setReg (CMP.RESULT_CHECK c) e.check
  (s.raise pCMP (2 + c)).paceRequest (1 + c)

/-- Device memory that a job reads, and all that it uses. -/
def State.cmpReads (s : State) (j : CmpJob) : List (Nat × Nat) := if j.req.srcLen = 0 then [] else s.cmpSources j.client j.req
def State.cmpUses (s : State) (j : CmpJob) : List (Nat × Nat) :=
  if j.req.srcLen = 0 then [] else s.cmpSources j.client j.req ++ [(j.req.dst, j.req.dstLen)]

/-- CMP_DONE: the job of a compressor ends, once its memory serves requests (R102 to R107, R112, R500, R505). A request of it that failed makes
the check fail (R105, R495, R518). -/
def State.cmpDone (s : State) (c : Nat) (equal : Bool) (mem : MemRep) : State :=
  match (s.cmpOf c).run with
  | none => s
  | some j =>
    if !s.served (s.cmpUses j) then s
    else
      let mem := s.meets (s.cmpReads j ++ if j.req.srcLen = 0 then [] else partReads j.req.dst j.req.dstLen) mem
      let (e, s) := ((s.touch (s.cmpUses j)).memReport .compressor mCMP mem).cmpRun j (equal && mem.faults.isEmpty && !j.bad) mem.faults
      let s := (s.setCmp c fun u => { u with run := none }).cmpCount c j e
      let s := if e.code = E.NONE ∨ e.code = E.ZERO then s else s.cmpFailed c j e.code
      if j.client = clLEDGER then s.packEnd j e
      else if j.client = clALBUM then s
      else if j.client = clRING then s.ringEnd c e j.ring
      else s.registerEnd c e

/-- CMP_DONE (R105). -/
def execCmpDone (unit : Fin 2) (readBackEqual : Bool) (mem : MemRep) (s : State) : Host.Outcome State Fault Refusal :=
  .next (settle s (s.cmpDone unit readBackEqual mem))

/-- SEGMENT_PACKED: the pack job of the closed segment ends on the compressor of LEDGER_UNIT, which takes it now where it is idle (R593). -/
def State.segmentPacked (s : State) (failed : Bool) : State :=
  let c := s.ledgerUnit
  let s := s.cmpTake c none {}
  if (s.cmpOf c).run.any (·.client == clLEDGER) then s.cmpDone c (!failed) {} else s

/-- SEGMENT_PACKED (R593). -/
def execSegmentPacked (failed : Bool) (s : State) : Host.Outcome State Fault Refusal := .next (settle s (s.segmentPacked failed))

/-- What a read of a derived CMP register returns. -/
def State.readCmp (s : State) (a : Nat) : Option Nat :=
  if a = STATUS pCMP then
    some (s.reg a + (if (s.cmpOf 0).run.isSome then 16 else 0) + if (s.cmpOf 1).run.isSome then 32 else 0)
  else none

end Sys2Proof.Machine
end

