-- ==== Sys2Proof/Machine/Hbm.lean ====
section
/-! DEFINITION. BAR2 accesses and the in-package memory (R486 to R509, R535, R536). -/

namespace Sys2Proof.Machine

/-! ### BAR2 (R535, R536) -/

/-- The data that a host read returns, with its EP bit. -/
def State.hostData (s : State) (bs : List Byte) (ep : Bool) : State := { s with host := { s.host with data := bs, ep := ep } }

/-- Bytes of an access. -/
def bar2Size : Bar2Op → Nat
  | .read n => n
  | .write bs => bs.length

/-- R535: an access that reaches nothing. -/
def State.bar2Unmapped (s : State) (op : Bar2Op) : State :=
  let s := (s.bump HOST.BAR2_UNMAPPED 1).error pHOST E.UNMAPPED []
  match op with
  | .read n => s.hostData (List.replicate n 0) false
  | .write _ => s

/-- R536: a read that completes with EP, with data the spec leaves open (log 3). -/
def State.bar2Poisoned (s : State) (n : Nat) : State :=
  let (bs, s) := s.freshBytes n
  (s.hostData bs true).bump HOST.BAR2_POISONED 1

/-- A BAR2 access to scratch, as the DMA master (R536). -/
def State.bar2Scratch (s : State) (a : Nat) (op : Bar2Op) (mem : MemRep) : State :=
  match op with
  | .read n =>
    let mem := s.meets [(a, n)] mem
    let s := s.memReport .bar2 mDMA mem
    if mem.faults.any failsRead then s.bar2Poisoned n else s.hostData (s.readMem a n) false
  | .write bs =>
    if s.protects a bs.length then s.bump SPLIT.PROTECTED_WRITES 1
    else (s.memReport .bar2 mDMA mem).storeDev mDMA a bs mem.faults

/-- A BAR2 access to HBM that the controller serves (R536, R504). What a poisoned write leaves in its unit the spec does not say (log 3). -/
def State.bar2Hbm (s : State) (a : Nat) (op : Bar2Op) (mem : MemRep) : State :=
  let s := (s.touch [(a, bar2Size op)]).memReport .bar2 mDMA mem
  match op with
  | .read n => if mem.faults.any failsRead then s.bar2Poisoned n else s.hostData (s.readMem a n) false
  | .write bs =>
    let (bs, s) := s.undefined a bs (writeFails mem.faults)
    s.storeDev mDMA a bs

/-- The waiting BAR2 accesses that the controller can serve now are served, in order; one requester's accesses keep their order (R488). -/
def State.serveWaiting : Nat → State → State
  | 0, s => s
  | n + 1, s =>
    match s.hbm.waiting with
    | [] => s
    | (a, op, mem) :: rest =>
      if s.hbmServes a (bar2Size op) then (({ s with hbm := { s.hbm with waiting := rest } } : State).bar2Hbm a op mem).serveWaiting n else s

/-- Every waiting access that can be served is served. -/
def State.serveAll (s : State) : State := s.serveWaiting s.hbm.waiting.length

/-- BAR2_ACCESS (R535, R536). -/
def State.bar2Access (s : State) (a : Nat) (op : Bar2Op) (mem : MemRep) : State :=
  if !s.enabled pHOST || !mapped a (bar2Size op) then s.bar2Unmapped op
  else if inHbm a (bar2Size op) then
    ({ s with hbm := { s.hbm with waiting := s.hbm.waiting ++ [(a, op, mem)] } } : State).serveAll
  else s.bar2Scratch a op mem

/-- BAR2_ACCESS (R535). -/
def execBar2Access (offset : BitVec 36) (op : Bar2Op) (mem : MemRep) (s : State) : Host.Outcome State Fault Refusal :=
  .next (settle s ((s.wakeEvent wakeREGISTER).bar2Access offset.toNat op mem))

/-! ### Refresh and temperature (R489, R490) -/

/-- HOT of REFRESH_CFG as it acts, and HYST (R508). -/
def State.hotLimit (s : State) : Int := min 95 (max 70 (bits (s.reg HBM.REFRESH_CFG) 7 0))
def State.hotHyst (s : State) : Int := max 1 (bits (s.reg HBM.REFRESH_CFG) 11 8)
def State.critLimit (s : State) : Int := bits (s.reg HBM.REFRESH_CFG) 23 16

/-- R489, R492: a refresh window of a stack starts, and its activate tables are cleared. -/
def State.refreshWindow (s : State) (stack : Nat) : State :=
  { s with hbm := { s.hbm with tables := s.hbm.tables.filter fun t => t.1 / 96 / 16 != stack } }

/-- HBM_REFRESH (R489). -/
def execHbmRefresh (stack : Fin 2) (s : State) : Host.Outcome State Fault Refusal := .next (settle s (s.refreshWindow stack))

/-- R490: a stack's temperature is read. -/
def State.tempRead (s : State) (k t : Nat) : State :=
  let new := sInt 8 t
  let old := sInt 8 (s.hbm.temp.getD k 0)
  let was := s.hbm.hot.getD k false
  let hot := decide (s.hotLimit ≤ new) || (was && !decide (new < s.hotLimit - s.hotHyst))
  let s : State := { s with hbm := { s.hbm with temp := s.hbm.temp.set k t, hot := s.hbm.hot.set k hot } }
  let s := if hot && !was then s.raise pHBM 4 else s
  if decide (s.critLimit ≤ new) && !decide (s.critLimit ≤ old) then s.raise pHBM 5 else s

/-- HBM_TEMP_READ (R490). -/
def execHbmTempRead (stack : Fin 2) (celsius : BitVec 8) (s : State) : Host.Outcome State Fault Refusal :=
  .next (settle s (s.tempRead stack celsius.toNat))

/-! ### Parity (R493, R494) -/

/-- R494: the fourth alert of the same commands. -/
def State.parityFail (s : State) (requests : List (Fin 9 × Nat)) : State :=
  let s := ((s.error pHBM E.PARITY_FAIL []).bump HBM.PARITY_FAILS 1).raise pHBM 2
  requests.foldl (fun s r =>
    let s : State := { s with hbm := { s.hbm with poisonDue := s.hbm.poisonDue ++ [(r.1.val, r.2)] } }
    if recordedAtFail r.1.val then s.poisonedReq r.1.val r.2 [] else s) s

/-- R493: the commands of a channel's retry buffer that the last 24 clocks issued, `recent` of them, are issued again in their order, with their
activates. -/
def State.reissue (s : State) (ch recent : Nat) : State :=
  (((keyGet s.hbm.retry ch).getD []).take recent).reverse.foldl State.activateAt s

/-- R493, R494: a parity alert of a channel; `recurs` says that it came during the replay of the last one, and `recent` how many commands of
the retry buffer the 24 clocks before it issued. -/
def State.parityAlert (s : State) (ch : Nat) (recurs : Bool) (recent : Nat) (requests : List (Fin 9 × Nat)) : State :=
  let n := if recurs then (keyGet s.hbm.replays ch).getD 0 else 0
  if 3 ≤ n then ({ s with hbm := { s.hbm with replays := keyErase s.hbm.replays ch } } : State).parityFail requests
  else
    let s : State := { s with hbm := { s.hbm with replays := keySet s.hbm.replays ch (n + 1) } }
    (((s.error pHBM E.PARITY_REPLAY []).bump HBM.PARITY_REPLAYS 1).raise pHBM 2).reissue ch recent

/-- PARITY_REPLAY (R493). -/
def execParityReplay (channel : Fin 32) (recurs : Bool) (recent : Nat) (requests : List (Fin 9 × Nat)) (s : State) :
    Host.Outcome State Fault Refusal :=
  .next (settle s (s.parityAlert channel recurs recent requests))

/-! ### Job activity that holds work back -/

/-- A job slot is LEADING, WRITING or DRAINING. -/
def State.jobsActive (s : State) : Bool := s.slots.any fun x => x.st == .leading || x.st == .writing || x.st == .draining

/-! ### Delays (R497) -/

/-- Key of a delay: set, kind, channel, lane; KIND 3 acts as 0, and CA has one delay for the channel. -/
def delayKey (set kind ch lane : Nat) : Nat :=
  let k := if kind = 3 then 0 else kind
  ((set * 3 + k) * 32 + ch) * 8 + (if k = 2 then 0 else lane)

/-- The delay that DELAY_SEL names. -/
def State.delaySelKey (s : State) : Nat :=
  let v := s.reg HBM.DELAY_SEL
  delayKey (bits v 24 24) (bits v 17 16) (bits v 12 8) (bits v 2 0)

/-- What DELAY_VALUE reads. -/
def State.delayValue (s : State) : Nat := sparseGet s.hbm.delays s.delaySelKey 0

/-- R497: a write of DELAY_VALUE. -/
def State.delayWrite (s : State) (v : Nat) : State :=
  if bits (s.reg HBM.DELAY_SEL) 24 24 = s.hbm.rateNow ∧ s.jobsActive then s.bump HBM.DELAY_WRITES_DROPPED 1
  else { s with hbm := { s.hbm with delays := sparseSet s.hbm.delays s.delaySelKey (v % 128) 0 } }

/-! ### Sweeps (R498, R499, R501) -/

/-- COUNT, STRIDE and FIRST of SWEEP_RANGE as they act (R508). -/
def sweepCount (r : Nat) : Nat := min 64 (bits r 30 24)
def sweepStride (r : Nat) : Nat := max 1 (bits r 19 16)
def sweepFirst (r : Nat) : Nat := bits r 6 0

/-- SWEEP_ADDR. -/
def State.sweepAddr (s : State) : Nat := s.reg64 HBM.SWEEP_ADDR_LO HBM.SWEEP_ADDR_HI % 2 ^ 36

/-- R499: a sweep with these registers is refused. -/
def State.sweepRefused (s : State) (ctrl : Nat) : Bool :=
  let r := s.reg HBM.SWEEP_RANGE
  s.jobsActive || s.hbm.sweep.isSome || s.hbm.rateBusy || s.hbm.repair.isSome || bits ctrl 17 16 == 2 ||
  decide (127 + sweepStride r < sweepFirst r + sweepCount r * sweepStride r) || !inHbm s.sweepAddr 1 || hbmCh s.sweepAddr != bits ctrl 12 8

/-- A sweep ends with a result (R498, R499, R501). -/
def State.sweepEnd (s : State) (result : Nat) (stale : Bool) : State :=
  ((s.setReg HBM.SWEEP_STATUS (2 ^ 31 + (if stale then 2 ^ 29 else 0) + result)).raise pHBM 7)

/-- A write of SWEEP_CTRL (R498, R499). -/
def State.sweepStart (s : State) (v : Nat) : State :=
  let ctrl := putField v 31 31 0
  let s := s.setReg HBM.SWEEP_CTRL ctrl
  if bit v 31 then
    if s.sweepRefused ctrl then s.sweepEnd 2 false
    else if sweepCount (s.reg HBM.SWEEP_RANGE) = 0 then s.sweepEnd 1 false
    else { s with hbm := { s.hbm with sweep := some (ctrl, s.reg HBM.SWEEP_RANGE, s.sweepAddr) } }
  else s

/-- Bits of SWEEP_CTRL that a write changes, with START. -/
def sweepCtrlMask : Nat := 0x80031F07

/-- SWEEP_START (R498). -/
def execSweepStart (ctrl : Word) (s : State) : Host.Outcome State Fault Refusal :=
  .next (settle s ((s.wakeEvent wakeREGISTER).sweepStart (ctrl.toNat &&& sweepCtrlMask)))

/-- Steps of a sweep write their pattern to the unit, which holds it then, and read it back 16 times (R498); the spec does not state the
pattern. -/
def State.sweepSteps (s : State) (a steps : Nat) : State :=
  if steps = 0 then s
  else
    let u := a / 256 * 256
    let (bs, s) := s.freshBytes 256
    (s.touch (List.replicate (17 * steps) (u, 256))).storeDev mDMA u bs

/-- R498: the running sweep has run its steps, with the mismatched bytes of each. -/
def State.sweepDone (s : State) (errors : List Nat) : State :=
  match s.hbm.sweep with
  | none => s
  | some (_, range, a) =>
    let s : State := { s with hbm := { s.hbm with sweep := none } }
    let s := (List.range (sweepCount range)).foldl (fun s i => s.setReg (HBM.SWEEP_ERR i) (errors.getD i 0 % 2 ^ 32))
      (s.sweepSteps a (sweepCount range))
    s.sweepEnd 0 false

/-- SWEEP_DONE (R498). -/
def execSweepDone (errors : List Nat) (s : State) : Host.Outcome State Fault Refusal := .next (settle s (s.sweepDone errors))

/-! ### Rate changes (R500, R501) -/

/-- R500: the commit of group 1 is accepted. -/
def State.rateAllowed (s : State) : Bool :=
  !s.jobsActive && !s.hbm.rateBusy && s.hbm.repair.isNone && bits (s.reg HBM.RATE) 0 0 != s.hbm.rateNow

/-- SWEEP_ERR of a step that a stopped sweep has run: mismatched bytes of one byte lane in 16 reads of 256 bytes (R498), a value that the
commit does not bring (log 3). -/
def State.staleErr (s : State) (i : Nat) : State :=
  let (e, s) := s.fresh
  s.setReg (HBM.SWEEP_ERR i) (e % 513)

/-- R501: a sweep stops for a rate change, at the end of the step that runs; how many steps it has run by then the commit does not bring
(log 3). -/
def State.sweepStale (s : State) : State :=
  match s.hbm.sweep with
  | none => s
  | some (_, range, a) =>
    let (k, s) := ({ s with hbm := { s.hbm with sweep := none } } : State).fresh
    let n := k % sweepCount range + 1
    let s := (List.range n).foldl State.staleErr (s.sweepSteps a n)
    (s.sweepEnd 3 true).error pHBM E.SWEEP_STALE []

/-- R500: an accepted commit of group 1. -/
def State.rateStart (s : State) : State :=
  let s := s.sweepStale
  { s with hbm := { s.hbm with rateBusy := true, low := 2, writes := [] } }

/-- R500: the rate change completes. -/
def State.rateDone (s : State) : State :=
  if s.hbm.rateBusy then
    let s : State := { s with hbm := { s.hbm with rateBusy := false, rateNow := bits (s.active HBM.RATE) 0 0 } }
    (s.leaveSelfRefresh.raise pHBM 6).serveAll
  else s

/-- RATE_DONE (R500). -/
def execRateDone (s : State) : Host.Outcome State Fault Refusal := .next (settle s s.rateDone)

/-! ### Row repair (R505 to R507) -/

/-- A repair ends with a result: DONE and the interrupt. -/
def State.repairEnd (s : State) (result : Nat) : State :=
  (s.setReg HBM.REPAIR_STATUS (2 ^ 31 + result)).raise pHBM 8

/-- The ledger record of a repair: the row and the result (R506). -/
def State.repairRec (s : State) (sel result : Nat) : State := s.event pHBM V.REPAIR [.f 4 sel, .f 1 result]

/-- R505, R506: a write of REPAIR_CMD with ACT at 1. -/
def State.repairStart (s : State) : State :=
  let sel := s.active HBM.REPAIR_SEL
  if s.jobsActive || s.hbm.sweep.isSome || s.hbm.rateBusy || s.hbm.repair.isSome || s.hbm.low == 2 then (s.repairEnd 2).repairRec sel 2
  else { s with hbm := { s.hbm with repair := some sel } }

/-- REPAIR (R505). -/
def execRepair (s : State) : Host.Outcome State Fault Refusal := .next (settle s (s.wakeEvent wakeREGISTER).repairStart)

/-- R507: the four units of a repaired row hold undefined data. -/
def State.rowUndefined (s : State) (sel : Nat) : State :=
  (List.range 4).foldl (fun s col =>
    let (bs, s) := s.freshBytes 256
    s.writeMem (hbmUnit (bits sel 28 24) (bits sel 30 30) (bits sel 21 16) (bits sel 13 0) col) bs) s

/-- RESULT of REPAIR_STATUS. -/
def repairCode : RepairOutcome → Nat
  | .ok => 0
  | .noSpare => 1
  | .failed => 3

/-- R506, R507: the running repair ends. -/
def State.repairDone (s : State) (o : RepairOutcome) : State :=
  match s.hbm.repair with
  | none => s
  | some sel =>
    let s : State := { s with hbm := { s.hbm with repair := none } }
    let s := if o = .ok then s.rowUndefined sel else s
    ((s.repairEnd (repairCode o)).repairRec sel (repairCode o)).serveAll

/-- REPAIR_DONE (R506). -/
def execRepairDone (outcome : RepairOutcome) (s : State) : Host.Outcome State Fault Refusal := .next (settle s (s.repairDone outcome))

/-! ### Write queues (R487) -/

/-- R487: the oldest queued write of a pseudo channel has waited SCHED.WR_AGE. -/
def State.drainAge (s : State) (ch pc : Nat) : State :=
  if (keyGet s.hbm.writes (pcKey ch pc)).getD 0 = 0 then s else s.drain (pcKey ch pc)

/-- WRITE_DRAIN_AGE (R487). -/
def execWriteDrainAge (channel : Fin 32) (pc : Fin 2) (s : State) : Host.Outcome State Fault Refusal :=
  .next (settle s (s.drainAge channel pc))

/-! ### Registers of the page (R508) -/

/-- A write of an HBM register, after the store of its bits. -/
def State.writeHbm (s : State) (a v : Nat) : State :=
  if a = HBM.DELAY_VALUE then s.delayWrite v
  else if a = HBM.SWEEP_CTRL then s.sweepStart (v &&& sweepCtrlMask)
  else if a = HBM.REPAIR_CMD then (if bit v 8 then s.repairStart else s)
  else if a = CTRL pHBM then s.serveAll
  else s

/-- R502: a channel is in power-down once DOZE orders it and its queues are empty. -/
def State.poweredDown (s : State) (ch : Nat) : Bool :=
  s.hbm.low == 1 && s.hbm.writes.all (fun w => w.1 / 2 != ch) && s.hbm.waiting.all fun w => hbmCh w.1 != ch

/-- STATE of SR_STATE: POWER_DOWN once every channel is in it (DESIGN CHOICE, log 74: the spec does not say what it shows while some are). -/
def State.hbmLow (s : State) : Nat :=
  if s.hbm.low = 1 then (if (List.range 32).all s.poweredDown then 1 else 0) else s.hbm.low

/-- What a read of a derived HBM register returns. -/
def State.readHbm (s : State) (a : Nat) : Option Nat :=
  if a = HBM.DELAY_VALUE then some s.delayValue
  else if a = HBM.SWEEP_STATUS then some (s.reg a + if s.hbm.sweep.isSome then 2 ^ 30 else 0)
  else if a = HBM.REPAIR_STATUS then some (s.reg a + if s.hbm.repair.isSome then 2 ^ 30 else 0)
  else if a = HBM.TEMP 0 then some (s.hbm.temp.getD 0 0 + if s.hbm.hot.getD 0 false then 2 ^ 31 else 0)
  else if a = HBM.TEMP 1 then some (s.hbm.temp.getD 1 0 + if s.hbm.hot.getD 1 false then 2 ^ 31 else 0)
  else if a = HBM.SR_STATE then some (16 * s.hbm.rateNow + if s.hbm.rateBusy then 3 else s.hbmLow)
  else if a = STATUS pHBM then
    some (s.reg a + (if s.hbm.rateBusy then 16 else 0) + (if s.hbm.hot.getD 0 false then 32 else 0) +
      (if s.hbm.hot.getD 1 false then 64 else 0) + if s.hbm.low = 2 then 128 else 0)
  else none

end Sys2Proof.Machine
end

