-- ==== Sys2Proof/Machine/Echo.lean ====
section
/-! DEFINITION. Echo settlement (R272 to R275), and health reports as they arrive (R344, R345). -/

namespace Sys2Proof.Machine

/-- Outcomes of a segment (R272): 0 Good, 1 Mismatch, 2 Missing, 3 Lost. -/
def Seg.outcome (g : Seg) : Nat := if g.lost then 3 else match g.echo with
  | none => 2
  | some 0 => 0
  | some _ => 1

/-- Cause on the cells, error code and counter of an outcome (R272, R284). -/
def outcomeCause (o : Nat) : Nat := if o = 1 then rECHO_MISMATCH else if o = 2 then rECHO_MISSING else rFRAME_LOST
def outcomeCode (o : Nat) : Nat := if o = 1 then E.ECHO_MISMATCH else if o = 2 then E.ECHO_MISSING else E.FRAME_LOST
def outcomeCounter (o : Nat) : Nat := if o = 1 then SEAL.ECHO_MISMATCHES else if o = 2 then SEAL.ECHO_MISSINGS else SEAL.FRAMES_LOST

/-- The run of an outcome reaches this line time; whether it begins here (R275). -/
def State.runAt (s : State) (o : Nat) : Bool × State :=
  let fresh := match keyGet s.sealU.ran o with
    | none => true
    | some t => decide (t + 1 < s.lineTime)
  (fresh, { s with sealU := { s.sealU with ran := keySet s.sealU.ran o s.lineTime } })

/-- A segment that is not Good is reported (R275): one tally for each strip of a run, the code latched and IRQ_RAW.ECHO raised once a run. -/
def State.badSegment (s : State) (o strip : Nat) : State :=
  let (fresh, s) := s.runAt o
  let (any, s) := s.runAt 0
  let s := if any then s.raise pSEAL 4 else s
  s.report pSEAL (outcomeCode o) strip 1 [.f 1 strip, .lt s.lineTime] [] (if fresh then some pSEAL else none) none false

/-- The outcome that a segment settles by: in a replay the one recorded for its strip and line time (R602). -/
def State.segOutcome (s : State) (g : Seg) : Nat := if s.replaying && !g.lost then s.recordedOutcome g.data.strip else g.outcome

/-- One segment is settled (R272, R273). -/
def State.settleSeg (s : State) (g : Seg) : State :=
  let s := s.bump SEAL.SEGMENTS 1
  let o := s.segOutcome g
  if o = 0 then s
  else g.cells.foldl (fun s c => s.suspectCell c.1 c.2 (outcomeCause o)) ((s.bump (outcomeCounter o) 1).badSegment o g.data.strip)

/-- The segments that `p` chooses are settled and no longer outstanding. -/
def State.settleSegs (s : State) (p : Seg → Bool) : State :=
  (s.segs.filter p).foldl State.settleSeg { s with segs := s.segs.filter fun g => !p g }

/-- Segments of which Jembi Link or the head has reported that they are lost (R273). -/
def State.settleLost (s : State) : State := s.settleSegs (·.lost)

/-- ECHO_SETTLE: the segments whose echo was due by this edge, and the lost ones (R272). -/
def State.echoSettle (s : State) : State := s.settleSegs fun g => g.lost || decide (g.lt + 4 ≤ s.lineTime)

/-- ECHO_SETTLE (R272). -/
def execEchoSettle (s : State) : Host.Outcome State Fault Refusal := .next (settle s s.echoSettle)

/-- R275, R586: runs that no segment has carried on close their tallies. -/
def State.closeRuns (s : State) : State :=
  let past := s.sealU.ran.filter fun r => decide (r.2 + 1 < s.lineTime)
  let s : State := { s with sealU := { s.sealU with ran := s.sealU.ran.filter fun r => !decide (r.2 + 1 < s.lineTime) } }
  s.closeTallies fun t => past.any fun r => r.1 != 0 && t.code == outcomeCode r.1

/-! ### Health reports (R344, R345) -/

/-- A HEALTH message meets its layout (R342). -/
def healthOk (m : List Byte) : Bool :=
  fld m 0 1 == 2 && decide (fld m 1 1 ≤ 4) && decide (fld m 2 1 ≤ 7) && fld m 3 1 == 0 && decide (1 ≤ fld m 8 4) &&
  decide (fld m 8 4 ≤ 65536) && zeroFrom m 12

/-- R345: while a health gap is open, the cells that the segments of this line time cross become SUSPECT. -/
def State.gapMarks (s : State) : State :=
  if s.jl.healthGap then
    (s.segs.filter (·.lt == s.lineTime)).foldl (fun s g => g.cells.foldl (fun s c => s.suspectCell c.1 c.2 rBEAM_LOST) s) s
  else s

/-- R345: a gap in the health telemetry opens, and reaches the segments of the line time in which it opens; in a replay a live one does not act
(R602). -/
def State.openGap (s : State) : State :=
  if s.replaying then s.suppress else ({ s with jl := { s.jl with healthGap := true } } : State).gapMarks

/-- R344: a report that has arrived whole is checked by its number and waits to be taken. -/
def State.reportWhole (s : State) (r : HealthReport) : State :=
  let take (s : State) : State := { s with jl := { s.jl with lastReport := some r.number, reports := s.jl.reports ++ [r] } }
  match s.jl.lastReport with
  | none => take s
  | some k =>
    if r.number = k then s.strayMsg
    else if r.number = (k + 1) % 2 ^ 16 then take s
    else take s.telemetryGap.openGap

/-- R344: a HEALTH message is gathered into its report. -/
def State.healthMsg (s : State) (m : List Byte) : State :=
  if healthOk m then
    let n := fld m 4 2
    let msg : HealthMsg := { row := fld m 1 1, failed := bit (fld m 2 1) 1, first := fld m 6 2, count := fld m 8 4 }
    let before : List HealthMsg := match s.jl.gather with
      | none => []
      | some r => if r.number = n then r.msgs else []
    let r : HealthReport := { number := n, full := bit (fld m 2 1) 2, msgs := before ++ [msg] }
    if bit (fld m 2 1) 0 then ({ s with jl := { s.jl with gather := none } } : State).reportWhole r
    else { s with jl := { s.jl with gather := some r } }
  else s.strayMsg

/-- HEALTH (R344). -/
def execHealth (msg : List Byte) (s : State) : Host.Outcome State Fault Refusal := .next (settle s ((s.returnTaken msg).healthMsg msg))

end Sys2Proof.Machine
end

