-- ==== Sys2Proof/Machine/Loops.lean ====
section
/-! DEFINITION. Source power loops and the sample bus (R436 to R455). -/

namespace Sys2Proof.Machine

/-! ### Zones -/

/-- HOLD and RAMP of FAULT_CFG as they act; a write takes effect at the next boundary (R453). -/
def State.holdSamples (s : State) : Nat := max 1 (bits (s.active LOOP.FAULT_CFG) 27 16)
def State.rampStep (s : State) : Nat := max 1 (bits (s.active LOOP.FAULT_CFG) 14 0)

/-! ### Tables (R440) -/

/-- A 16-bit entry of a table whose registers hold two. -/
def half (w i : Nat) : Nat := if i % 2 = 0 then bits w 15 0 else bits w 31 16
/-- G[l][k] and R[k] of the active bank. -/
def State.gainEntry (s : State) (l k : Nat) : Nat := half (s.reg (LOOP.GAIN s.loops.bank l (k / 2))) k
def State.recipEntry (s : State) (k : Nat) : Nat := half (s.reg (LOOP.RECIP s.loops.bank (k / 2))) k

/-- gain of R440. -/
def State.gain (s : State) (l : Nat) (e : Int) : Nat :=
  let m := min e.natAbs 32767
  let k := m / 512
  let f := m % 512
  (rneDiv (s.gainEntry l k * (512 - f) + s.gainEntry l (min (k + 1) 63) * f) 512).toNat

/-- recip of R440. -/
def State.recip (s : State) (vs : Int) : Nat :=
  let v := (max vs 0).toNat
  let k := v / 1024
  let f := v % 1024
  (rneDiv (s.recipEntry k * (1024 - f) + s.recipEntry (min (k + 1) 31) * f) 1024).toNat

/-! ### The control law (R439) -/

/-- OMIN and OMAX of a bank. -/
def State.omin (s : State) (b : Nat) : Int := bits (s.reg (LOOP.OUT_LIM b)) 14 0
def State.omax (s : State) (b : Nat) : Int := bits (s.reg (LOOP.OUT_LIM b)) 30 16

/-- sp of R439: the setpoint at the line rate. A RATE_REF of 0, outside its range, which nothing refuses, acts as 1 (DESIGN CHOICE, log 77). -/
def State.setpoint (s : State) (z : Nat) : Int :=
  sat (rneDiv (bits (s.active (LOOP.ZONE_REF z)) 15 0 * bits (s.reg WEB.RATE) 18 0) (max 1 (bits (s.active LOOP.RATE_REF) 18 0))) 0 32767

/-- The errors e[0] to e[2] of R439. -/
def State.loopErrors (s : State) (z : Nat) (q : Zone) : List Int :=
  let lim := s.active (LOOP.ZONE_LIM z)
  [sat (s.setpoint z - sInt 16 q.power) (-32768) 32767, sat (sInt 16 (bits lim 31 16) - sInt 16 q.temp) (-32768) 32767,
   sat (sInt 16 (bits lim 15 0) - sInt 16 q.current) (-32768) 32767]

/-- a[l] of R439. -/
def State.loopA (s : State) (l : Nat) (e : Int) : Int := rneDiv (e * s.gain l e) 4096

/-- c[l] of R439. -/
def State.loopC (s : State) (l : Nat) (e i : Int) : Int :=
  let b := s.loops.bank
  let ffa := if l = 0 then sat (rneDiv (sInt 16 (s.reg (LOOP.KA b)) * sInt 32 (s.active WEB.ACCEL)) (2 ^ 20)) (-32768) 32767 else 0
  sat (i / 2 ^ 16 + rneDiv (s.loopA l e * bits (s.reg (LOOP.KP b l)) 15 0) 4096 + ffa) (s.omin b) (s.omax b)

/-- The loop with the smallest candidate, the lowest on ties (R439). -/
def winner (cs : List Int) : Nat :=
  let m := cs.foldl min (cs.headD 0)
  cs.findIdx (· == m)

/-- The next integrator of a loop (R439). -/
def State.loopI (s : State) (w : Nat) (u : Int) (l : Nat) (e i : Int) : Int :=
  let b := s.loops.bank
  let i := if l = w then
      (if (u = s.omax b ∧ 0 < e) ∨ (u = s.omin b ∧ e < 0) then i else i + s.loopA l e * bits (s.reg (LOOP.KI b l)) 15 0)
    else min i (u * 2 ^ 16)
  sat i (s.omin b * 2 ^ 16) (s.omax b * 2 ^ 16)

/-- zone_sample of R439. -/
def State.zoneCompute (s : State) (z : Nat) : State :=
  let q := s.zoneOf z
  let es := s.loopErrors z q
  let cs := (List.range 3).map fun l => s.loopC l (es.getD l 0) (q.integ.getD l 0)
  let w := winner cs
  let u := cs.getD w 0
  s.setZone z fun q => { q with
    integ := (List.range 3).map fun l => s.loopI w u l (es.getD l 0) (q.integ.getD l 0)
    u := u, winner := w
    out := (sat (rneDiv (u * s.recip (sInt 16 q.supply)) (2 ^ 14)) 0 32767).toNat }

/-! ### Zone sample boundaries (R437, R438, R443, R447, R448) -/

/-- R448: a committed bank becomes active, and every integrator is clamped to its limits. -/
def State.bankSwap (s : State) : State :=
  if s.loops.pendingSwap && s.loops.swapLate then { s with loops := { s.loops with swapLate := false } }
  else if s.loops.pendingSwap then
    let b := 1 - s.loops.bank
    let clamp (i : Int) : Int := sat i (s.omin b * 2 ^ 16) (s.omax b * 2 ^ 16)
    let s : State := { s with loops := { s.loops with bank := b, pendingSwap := false,
                                                      zone := s.loops.zone.map fun q => { q with integ := q.integ.map clamp } } }
    (s.bump LOOP.SWAPS 1).raise pLOOP 6
  else s

/-- R438: the counts of a zone at a boundary. -/
def Zone.count (q : Zone) : Zone :=
  { q with miss := if q.fresh then 0 else min 15 (q.miss + 1), still := if q.toggled then 0 else min 15 (q.still + 1),
           fresh := false, toggled := false }

/-- The limits of R443 that move a zone in RUN to HOLD: 1 LOST, 2 FROZEN, 0 none. -/
def Zone.lostCause (q : Zone) : Nat := if 3 ≤ q.miss then 1 else if 8 ≤ q.still then 2 else 0

/-- R447: a START (1) or RESTART (2) acts on a zone at a boundary. -/
def State.zoneRequest (s : State) (z op : Nat) : State :=
  let q := s.zoneOf z
  let ok := q.miss = 0 ∧ q.still = 0
  if op = 1 ∧ ok ∧ q.st = .off then
    s.setZone z fun q => { q with st := .run, cause := 0, integ := List.replicate 3 (s.omin s.loops.bank * 2 ^ 16) }
  else if op = 2 ∧ ok ∧ (q.st = .hold ∨ q.st = .safe) then
    let s := s.setZone z fun q => { q with st := .run, cause := 0, integ := List.replicate 3 (q.u * 2 ^ 16) }
    let s := if s.replaying then s.suppress else s
    ((s.event pLOOP V.RESTART [.f 1 z, .lt s.lineTime]).raise pLOOP 5).bump LOOP.RESTARTS 1
  else s

/-- The requests that wait for this boundary act in the order in which they came; those of the hand-over cycle wait for the next one (R36). -/
def State.zoneRequests (s : State) (z : Nat) : State :=
  let asks := (s.zoneOf z).asks
  ((asks.filter fun a => !a.2).foldl (fun s a => s.zoneRequest z a.1) s).setZone z fun q =>
    { q with asks := (asks.filter (·.2)).map fun a => (a.1, false) }

/-- One step of the ramp of a zone in SAFE (R443). -/
def Zone.ramp (q : Zone) (target step : Nat) : Zone :=
  let out := if q.out ≤ target then min target (q.out + step) else max target (q.out - step)
  { q with out := out, u := out }

/-- One zone at a boundary (R437 to R443), after its counts of R438: a zone in RUN whose limits are reached does not
compute, since it enters HOLD here. -/
def State.zoneBoundary (s : State) (z : Nat) : State :=
  let s := s.zoneRequests z
  let q := s.zoneOf z
  match q.st with
  | .off => s
  | .run => if q.lostCause = 0 then s.zoneCompute z else s
  | .hold => s.setZone z fun q => { q with held := q.held + 1 }
  | .safe => s.setZone z fun q => q.ramp (bits (s.active (LOOP.ZONE_SAFE z)) 14 0) s.rampStep

/-- ZONE_SAMPLE: a zone sample boundary (R437). The messages are taken and counted whatever CTRL.EN (R438). -/
def State.zoneSample (s : State) : State :=
  let s := ((s.bankSwap).takeShadows .zone).takePending .zone
  let s := s.bump LOOP.SAMPLES 1
  let s := (List.range s.zones).foldl (fun s z => s.setZone z Zone.count) s
  if s.enabled pLOOP then
    (List.range s.zones).foldl State.zoneBoundary { s with loops := { s.loops with sample := (s.loops.sample + 1) % 2 ^ 32 } }
  else s

/-- ZONE_SAMPLE (R437). -/
def execZoneSample (s : State) : Host.Outcome State Fault Refusal := .next (settle s s.zoneSample)

/-! ### Lost feedback (R444 to R446) -/

/-- Fields of the records of one boundary (R444): how many zones, the first and the last, the cause of each, and F. -/
def State.holdFlds (s : State) (hit : List (Nat × Nat)) : List Fld :=
  let a := hit.headD (0, 0)
  let b := hit.getLastD (0, 0)
  [.f 1 a.1, .f 1 b.1, .f 1 a.2, .f 1 b.2, .lt s.nextLine]

/-- R444: the records, counters and interrupts of the zones that enter HOLD at one boundary: zone, cause. -/
def State.holdRecords (s : State) (hit : List (Nat × Nat)) : State :=
  let lost := (hit.filter fun h => h.2 == 1).length
  let frozen := (hit.filter fun h => h.2 == 2).length
  let code := if 0 < lost then E.LOST else E.FROZEN
  let fl := s.holdFlds hit
  let s := (s.report pLOOP code 0 hit.length (.f 4 hit.length :: fl) fl (some pLOOP) none false).closeCause code 0
  let s := if 0 < lost ∧ 0 < frozen then s.error pLOOP E.FROZEN (.f 4 hit.length :: fl) else s
  let s := if 0 < lost then (s.bump LOOP.LOSTS lost).raise pLOOP 2 else s
  if 0 < frozen then (s.bump LOOP.FROZENS frozen).raise pLOOP 3 else s

/-- ZONE_HOLD: zones in RUN whose limits are reached enter HOLD (R443, R444). -/
def State.zoneHold (s : State) : State :=
  let hit := (List.range s.zones).filterMap fun z =>
    let q := s.zoneOf z
    if q.st = .run ∧ q.lostCause ≠ 0 then some (z, q.lostCause) else none
  if hit.isEmpty then s
  else
    let s := hit.foldl (fun s h => s.setZone h.1 fun q => { q with st := .hold, cause := h.2, held := 0, early := true }) s
    let s := if s.replaying then s.suppress else s
    s.holdRecords hit

/-- ZONE_HOLD (R443). -/
def execZoneHold (s : State) : Host.Outcome State Fault Refusal := .next (settle s s.zoneHold)

/-- ZONE_SAFE: zones that have been in HOLD for FAULT_CFG.HOLD samples enter SAFE (R443, R446). -/
def State.zoneSafe (s : State) : State :=
  let hit := (List.range s.zones).filter fun z => decide ((s.zoneOf z).st = .hold) && decide (s.holdSamples ≤ (s.zoneOf z).held)
  hit.foldl (fun s z =>
    let s := s.setZone z fun q => { q with st := .safe }
    let s : State := if s.replaying then s.suppress else { s with loops := { s.loops with safeDue := s.loops.safeDue ++ [z] } }
    (s.event pLOOP V.SAFE [.f 1 z, .lt s.lineTime]).raise pLOOP 4) s

/-- ZONE_SAFE (R443). -/
def execZoneSafe (s : State) : Host.Outcome State Fault Refusal := .next (settle s s.zoneSafe)

/-- R446: committed cells of a zone that has entered SAFE, with a line that some row has not written, take a void. -/
def State.safeMarks (s : State) : State :=
  let zs := s.loops.safeDue
  zs.foldl (fun s z =>
    (List.range 4).foldl (fun s n =>
      match (s.slotOf n).start with
      | none => s
      | some t0 =>
        ((s.zoneCells n z).filter fun c =>
          c.committed && decide (s.lineTime ≤ t0 + (s.slotOf n).lastLine c + (s.rows - 1) * s.spacing)).foldl
          (fun s c => s.voidCell n c.idx rLATE_VOID) s) s) { s with loops := { s.loops with safeDue := [] } }

/-! ### Commands (R443, R447, R453) -/

/-- Zones that a ZONE_CMD names. -/
def State.zonesNamed (s : State) (all : Bool) (z : Nat) : List Nat := if all then List.range s.zones else if z < s.zones then [z] else []

/-- A START or RESTART asked for (R447); while CTRL.EN is 0 every zone is held OFF. `late` is a write in a hand-over cycle, which belongs to
the boundary after the coming one (R36). -/
def State.zoneAsk (s : State) (all : Bool) (z op : Nat) (late : Bool) : State :=
  let s := if late then s.setLate pLOOP else s
  if s.enabled pLOOP then (s.zonesNamed all z).foldl (fun s z => s.setZone z fun q => { q with asks := q.asks ++ [(op, late)] }) s else s

/-- ZONE_START (R447). -/
def execZoneStart (all : Bool) (zone : Fin 64) (late : Bool) (s : State) : Host.Outcome State Fault Refusal :=
  .next (settle s ((s.wakeEvent wakeREGISTER).zoneAsk all zone 1 late))

/-- RESTART (R447). -/
def execRestart (all : Bool) (zone : Fin 64) (late : Bool) (s : State) : Host.Outcome State Fault Refusal :=
  .next (settle s ((s.wakeEvent wakeREGISTER).zoneAsk all zone 2 late))

/-- R443: a zone becomes OFF; a START or RESTART asked for earlier goes with it. -/
def Zone.stop (q : Zone) : Zone := { q with st := .off, cause := 0, out := 0, u := 0, asks := [] }

/-- STOP of ZONE_CMD. -/
def State.zoneStop (s : State) (all : Bool) (z : Nat) : State := (s.zonesNamed all z).foldl (fun s z => s.setZone z Zone.stop) s

/-- ZONE_STOP (R443). -/
def execZoneStop (all : Bool) (zone : Fin 64) (s : State) : Host.Outcome State Fault Refusal :=
  .next (settle s ((s.wakeEvent wakeREGISTER).zoneStop all zone))

/-- A write of ZONE_CMD (R453). -/
def State.zoneCmd (s : State) (v : Nat) (late : Bool) : State :=
  let all := bit v 31
  let z := bits v 5 0
  if !bit v 8 then s
  else match bits v 17 16 with
    | 0 => s.zoneAsk all z 1 late
    | 1 => s.zoneStop all z
    | 2 => s.zoneAsk all z 2 late
    | _ => s

/-- A write of CTRL: at EN 0 every zone is OFF, and SAMPLE counts from EN (R441, R453). -/
def State.loopCtrl (s : State) (old : Nat) : State :=
  if !s.enabled pLOOP then { s with loops := { s.loops with zone := s.loops.zone.map Zone.stop } }
  else if bit old 0 then s
  else { s with loops := { s.loops with sample := 0 } }

/-- The bank that a register of the banks belongs to (R453). -/
def bankOf (a : Nat) : Option Nat :=
  let o := a - pageBase pLOOP
  if a < pageBase pLOOP then none
  else if 0x300 ≤ o ∧ o < 0x340 then some ((o - 0x300) / 0x20)
  else if 0x340 ≤ o ∧ o < 0x350 then some ((o - 0x340) / 4 % 2)
  else if 0x360 ≤ o ∧ o < 0x3E0 then some ((o - 0x360) / 0x40)
  else if 0x400 ≤ o ∧ o < 0x700 then some ((o - 0x400) / 0x180)
  else none

/-- R449: a write to a bank register is dropped. -/
def State.bankLocked (s : State) (a : Nat) : Bool := match bankOf a with
  | none => false
  | some b => s.loops.pendingSwap || b == s.loops.bank

/-! ### DRIVE (R441) -/

/-- The DRIVE messages of the latest outputs. -/
def State.driveContent (s : State) : List Byte :=
  let n := s.zones
  let msgs := (List.range (ceilDiv n 12)).flatMap fun i =>
    let cnt := min 12 (n - 12 * i)
    leBytes 1 0x11 ++ leBytes 1 (12 * i) ++ leBytes 1 cnt ++ leBytes 1 0 ++ leBytes 4 s.loops.sample ++
    (List.range 12).flatMap fun k => leBytes 2 (if k < cnt then (s.zoneOf (12 * i + k)).out else 0)
  msgs ++ List.replicate (640 - msgs.length) 0

/-- R441: a DRIVE codeword on the lowest-numbered UP lane of each lane group. -/
def State.drive (s : State) : State :=
  if s.enabled pLOOP && s.enabled pJLINK then
    let lanes := (List.range 2).filterMap fun g => (List.range 18).find? fun n => headGroup n == g && (s.laneOf n).link == hUP
    let s := lanes.foldl (fun s n => s.sendControl n s.driveContent) s
    if lanes.isEmpty then s else s.setReg LOOP.DRIVE_SEQ s.loops.sample
  else s

/-! ### The sample bus (R451, R452) -/

/-- Slots of a frame as they act (R454). -/
def State.sampleSlots (s : State) : Nat := min 16 (max 1 (bits (s.reg SAMPLE.CFG) 20 16))

/-- One slot of a frame: its result, or none where READY reads 1 (R452). -/
def State.sampleSlot (s : State) (k : Nat) (r : Option Nat) : State :=
  match r with
  | some v =>
    let s := s.setReg (SAMPLE.VALUE k) (2 ^ 31 + v % 2 ^ 16)
    { s with samples := s.samples.set k (some { v := v % 2 ^ 16, age := 0 }), sampleRun := s.sampleRun.erase k }
  | none =>
    let s := s.setReg (SAMPLE.VALUE k) (s.reg (SAMPLE.VALUE k) % 2 ^ 31)
    if s.sampleRun.contains k then s
    else
      let s : State := { s with sampleRun := s.sampleRun ++ [k] }
      ((s.error pSAMPLE E.SAMPLE_TIMEOUT [.f 1 k]).bump SAMPLE.TIMEOUTS 1).raise pSAMPLE 2

/-- SAMPLE_FRAME: one frame of the sample bus (R451, R452). -/
def State.sampleFrame (s : State) (results : List (Option (BitVec 16))) : State :=
  if s.enabled pSAMPLE then
    (List.range s.sampleSlots).foldl (fun s k => s.sampleSlot k ((results.getD k none).map (·.toNat)))
      ((s.emit (.sampleFrame ((List.range s.sampleSlots).map fun k => bits (s.reg (SAMPLE.CMD k)) 15 0))).bump SAMPLE.FRAMES 1)
  else s

/-- SAMPLE_FRAME (R451). -/
def execSampleFrame (results : List (Option (BitVec 16))) (s : State) : Host.Outcome State Fault Refusal :=
  .next (settle s (s.sampleFrame results))

/-- While SAMPLE.CTRL.EN is 0 every VALID is 0 (R454). -/
def State.sampleCtrl (s : State) : State :=
  if s.enabled pSAMPLE then s
  else (List.range 16).foldl (fun s k => s.setReg (SAMPLE.VALUE k) (s.reg (SAMPLE.VALUE k) % 2 ^ 31)) s

/-! ### Registers (R453) -/

/-- STATE of ZSTATE (R443). -/
def ZoneState.code : ZoneState → Nat
  | .off => 0 | .run => 1 | .hold => 2 | .safe => 3

/-- What a read of a derived LOOP register returns. -/
def State.readLoop (s : State) (a : Nat) : Option Nat :=
  if a = LOOP.BANK then some (s.loops.bank + if s.loops.pendingSwap then 2 else 0)
  else if a = STATUS pLOOP then some (s.reg a + if s.loops.pendingSwap then 16 else 0)
  else if LOOP.ZSTATE 0 ≤ a ∧ a < LOOP.ZSTATE 64 then
    let q := s.zoneOf ((a - LOOP.ZSTATE 0) / 4)
    some (q.st.code * 2 ^ 30 + q.cause * 2 ^ 28 + q.miss * 2 ^ 8 + q.still)
  else if LOOP.ZOUT 0 ≤ a ∧ a < LOOP.ZOUT 64 then
    let q := s.zoneOf ((a - LOOP.ZOUT 0) / 4)
    some (q.winner * 2 ^ 16 + q.out)
  else none

end Sys2Proof.Machine
end

