-- ==== Sys2Proof/Machine/Line.lean ====
section
/-! DEFINITION. The line event and what hands over at it (R287, R296, R302, R314, R35): generator, segments and fire markers, job slots,
placement, composition and dose frames; press and trigger edges; verdicts. -/

namespace Sys2Proof.Machine

/-! ### The generator's part (R296, R301, R309, R312) -/

/-- R296: a line event of the generator comes once the position has passed it: pg stands at least there, and hw counts it. -/
def State.lineReached (s : State) : State :=
  let at' : Int := (s.web.hw + 1 : Nat) * 2 ^ 48 - s.qeOffset
  ({ s with web := { s.web with pg := max s.web.pg at', hw := (s.web.hw + 1) % 2 ^ 48 } } : State).reverseCheck

/-- R301: ALONG_ACT moves toward its target by at most 1. -/
def State.alongStep (s : State) : State :=
  let t := sInt 16 (s.active WEB.ALONG)
  { s with web := { s.web with along := s.web.along + sat (t - s.web.along) (-1) 1 } }

/-- One line time more since each sample came and each open tally was opened (R230, R588). -/
def State.lineAges (s : State) : State :=
  { s with samples := s.samples.map fun p => p.map fun p => { p with age := p.age + 1 }
           led := { s.led with tallies := s.led.tallies.map fun t => { t with age := t.age + 1 } } }

/-- LINE_TIME counts a line event, and the spacing of R289 starts; a wrap of its low half has a record (R287, R582). -/
def State.countLine (s : State) : State :=
  let u := (s.lineTime + 1) % 2 ^ 48
  let s : State := ({ s with lineTime := u, web := { s.web with gap := 0 } } : State).lineAges
  if u % 2 ^ 32 = 0 then s.event pLEDGER V.LINE_WRAP [.f 2 (u / 2 ^ 32)] else s

/-- R309: LINE_TRIG_OUT. -/
def State.trigOut (s : State) : State :=
  let c := s.reg WEB.TRIG_OUT
  if bit c 31 then s.emit (.lineTrig (8 * max 1 (bits c 7 0))) else s

/-! ### Segments and fire markers at the edge (R333, R334, R337) -/

/-- Eighths of a UI of a codeword or training frame (R325, R371), and of a word of 80 UI. -/
def frameUi : Nat := 2720 * 8
def wordUi : Nat := 80 * 8

/-- The precoder's state of a lane where a marker word begins, after `after` words of its codeword, and the state at the end of the rest of that
codeword, which follows the marker word (R338, R360). -/
def Lane.markerPam (l : Lane) (m : Pam) (word : Nat) (after : Option Nat) : Pam × Nat :=
  match l.txWord, after with
  | some (h, c, m0), some k =>
    if k = 0 ∨ 34 ≤ k then (m, m.lastOf (markerGray word))
    else
      let g := codewordGray h c
      let mk := { m with last := m0.lastOf (g.take (80 * k)) }
      (mk, ({ m with last := mk.lastOf (markerGray word) } : Pam).lastOf (g.drop (80 * k)))
  | _, _ => (m, m.lastOf (markerGray word))

/-- A marker word goes out on a lane (R338, R340): at the next word boundary of the codeword in progress, whose rest follows it, or at the next
codeword boundary. -/
def State.sendMarker (s : State) (word n : Nat) : State :=
  let l := s.laneOf n
  let after := if s.jl.withheld || l.entered then none else some (if l.txLeft = 0 then 0 else ceilDiv (frameUi - l.txLeft) wordUi)
  let (m, last) := l.markerPam (s.pamOf n) word after
  (s.emit (.marker n word after m)).setLane n fun l =>
    { l with entered := false, txLeft := if l.txLeft = 0 then 0 else l.txLeft + wordUi, txLast := last }

/-- R337: the fire marker of the line time that ends goes out on every lane that is UP or SPARE, unless R314 withholds it. -/
def State.sendMarkers (s : State) : State :=
  if !s.enabled pJLINK then s
  else if s.markersOn then
    let s := ((List.range 18).filter fun n => (s.laneOf n).link == hUP || (s.laneOf n).link == hSPARE).foldl
      (State.sendMarker · (markerWord (markerBits (s.lineTime - 1) s.markerDelays)) ·) s
    { s with jl := { s.jl with withheld := false } }
  else { s with jl := { s.jl with withheld := true } }

/-- R334: segments of line times before this one that were not sent whole are abandoned: those that no lane had, those whose codewords are not all
out, and those that `unsent` names by row and strip. -/
def State.abandon (s : State) (unsent : Option (List (Nat × Nat))) : State :=
  let named (g : Seg) : Bool := decide (g.lt + 1 = s.lineTime) && (unsent.getD []).contains (g.data.row, g.data.strip)
  let hit (g : Seg) : Bool := decide (g.lt < s.lineTime) && !g.lost && (g.lane.isNone || g.open || named g)
  let n := (s.segs.filter hit).length
  if n = 0 then s
  else (({ s with segs := s.segs.map fun g => if hit g then { g with lost := true } else g } : State).bump JLINK.ABANDONED n).raise pJLINK 6

/-- R333: the segments of this line time wait on the UP lanes of their strips to be sent. -/
def State.sendSegments (s : State) : State :=
  let s := s.gapMarks
  if s.enabled pJLINK then
    let lane (g : Seg) : Option Nat :=
      let n := s.laneOfStrip g.data.strip
      if g.lt = s.lineTime ∧ g.lane.isNone ∧ !g.lost ∧ (s.laneOf n).link = hUP then some n else none
    { s with segs := s.segs.map fun g => match lane g with
        | none => g
        | some n => { g with lane := some n } }
  else s

/-- R333, R334: before the line event that ends a line time: where the event says which of its segments are not sent whole by then, the others
have been; where it does not, what the ticks have sent stands (log 38). -/
def State.linePassed (s : State) (unsent : Option (List (Nat × Nat))) : State :=
  match unsent with
  | none => s
  | some l => s.finishSegs fun g => decide (g.lt ≤ s.lineTime) && !l.contains (g.data.row, g.data.strip)

/-! ### Hand-over at the start of a row 0 line time (R33 to R37) -/

/-- R165: a reload takes effect, or is discarded. -/
def State.reload (s : State) (q : Pend) : State :=
  let sel := s.active FRANK.RELOAD_SEL
  let n := bits sel 17 16
  let num := bits sel 7 0
  let v := s.active64 FRANK.RELOAD_LO FRANK.RELOAD_HI
  let x := s.slotOf n
  if x.occupied ∧ x.job = q.job ∧ (x.fieldOf num).any fun f => f.kind == 0 then
    (s.setField n num fun f => { f with counter := v, reload := some v }).bump FRANK.RELOADS 1
  else s

/-- R602: a reload that hands over in a replay has its RELOAD record, for the next cell of its field, and does not act. -/
def State.reloadShown (s : State) (q : Pend) : State :=
  let n := bits (s.active FRANK.RELOAD_SEL) 17 16
  let num := bits (s.active FRANK.RELOAD_SEL) 7 0
  let x := s.slotOf n
  let next := ((x.fieldOf num).bind fun f => (List.range x.across).find? fun j => bit f.mask j).getD 0
  (if x.occupied ∧ x.job = q.job then
    s.event pFRANK V.RELOAD [.f 4 x.job, .f 1 num, .f 8 (s.active64 FRANK.RELOAD_LO FRANK.RELOAD_HI), .f 4 (x.cellIndex x.assigned next)]
  else s).suppress

/-- Everything shadowed at the start of each row 0 line time hands over (R35): a reload (R165), the beam port after the health reports
(R211, R214), the lane map (R353) and the tiles' takeovers (R142). -/
def State.handOverLine (s : State) : State :=
  let due (p g : Nat) : Option Pend := s.pend.find? fun q => q.page == p && q.group == g && !q.late
  let reload := due pFRANK 2
  let beam := due pSPLIT 2
  let tiles := (List.range s.tileSlots).map s.tileOf
  let s := ((s.takeShadows .line).takePending .line).mapTaken tiles
  let s := match reload with
    | none => s
    | some q => if s.replaying then s.reloadShown q else s.reload q
  let s := s.takeReports
  let s := if beam.isSome then s.beamPort else s
  (s.mapSync.tileSwaps).patrolSync

/-! ### Job slots at the edge (R63, R71 to R75, R316, R657) -/

/-- R316: D is 0 for a slot that becomes LEADING while a condition of a raised fault lasts. -/
def State.leadUnderFault (s : State) (n : Nat) : State := if s.web.lasting.isEmpty then s else s.lowerDamage n 0 V.TIMELINE_FAULT

/-- R657: composition takes line 0 of a slot at this edge. -/
def State.jobStarts (s : State) (n : Nat) : State :=
  let s := s.slotTo n .leading
  let x := s.slotOf n
  let s := s.post { src := pMAIL, code := V.JOB_STARTED, flds := [.f 4 x.job, .f 1 n, .lt (s.lineTime + x.lead)], aux := some s.lineTime }
  (s.voidUnpaired n).leadUnderFault n

/-- Slots whose line 0 composition takes at this edge become LEADING (R72, R74). -/
def State.promote (s : State) : State :=
  (List.range 4).foldl (fun s n =>
    let x := s.slotOf n
    if x.st = .staged ∧ (x.take.any fun t => decide (t ≤ s.lineTime)) then s.jobStarts n else s) s

/-- R63, R71: LEADING, WRITING and DRAINING follow the lines that row 0 writes. -/
def State.advance (s : State) (n : Nat) : State :=
  let x := s.slotOf n
  match x.start with
  | none => s
  | some t0 =>
    let s := if x.st = .leading ∧ t0 ≤ s.lineTime then s.slotTo n .writing else s
    if (s.slotOf n).st = .writing ∧ (x.ends.any fun e => decide (t0 + e ≤ s.lineTime)) then s.slotTo n .draining else s

/-- R75: an ABORT takes effect. -/
def State.abortSlot (s : State) (n : Nat) : State :=
  let x := s.slotOf n
  match x.st with
  | .gathering | .staged =>
    (s.event pMAIL V.JOB_ABORTED [.f 4 x.job, .f 1 x.st.code, .lt s.lineTime]).releaseSlot n
  | .leading | .writing =>
    let s := s.setEnd n 0
    s.event pMAIL V.JOB_ABORTED [.f 4 x.job, .f 1 x.st.code, .f 6 ((s.slotOf n).ends.getD 0), .lt s.lineTime]
  | .empty | .draining => s

/-- R74: a GO takes effect for the STAGED slot that is next in job-number order while composition makes idle lines. -/
def State.goSlot (s : State) (n : Nat) : State :=
  let x := s.slotOf n
  let free := s.slots.all fun y => y.st != .leading && y.st != .writing
  if s.enabled pTILE && x.st == .staged && s.comp.on.isNone && free && s.successor s.comp.last == some n then
    ((s.takeJob n s.lineTime).discardIdle (s.lineTime + x.lead)).promote
  else s

/-- R36, R74, R75: the waiting writes of MAIL.GO and ABORT act, ABORT first; late ones wait one edge longer. -/
def State.slotCmds (s : State) : State :=
  let due := s.mail.cmds.filter fun c => !c.late
  let s : State := { s with mail := { s.mail with cmds := (s.mail.cmds.filter (·.late)).map fun c => { c with late := false } } }
  let s := ((due.filter (·.abort)).foldl (fun s c => s.abortSlot c.slot) s).checkPlan
  (due.filter fun c => !c.abort).foldl (fun s c => s.goSlot c.slot) s

/-- A line time that has no plan yet is planned at its edge. -/
def State.replan (s : State) : State := if s.comp.plan.isNone then (s.planFor s.lineTime {}).promote else s

/-- The job slots at a hand-over edge of MAIL. -/
def State.jobEdge (s : State) : State :=
  ((List.range 4).foldl State.advance (s.checkPlan.promote.slotCmds.replan))

/-! ### The line time (R150, R191, R221) -/

/-- R244 step 4: a shared cell whose first line is taken next has its combined verdict. -/
def State.combineNext (s : State) (n : Nat) : State :=
  (s.sharedDue n fun t c _ => c.combV.isNone && c.decided && decide (t ≤ s.lineTime + 1)).foldl (fun s c => s.combineCell n c) s

/-- What the memories did in this line time (R487, R491, R495, R514, R517). -/
def State.memoryEvents (s : State) (env : LineEnv) : State :=
  let s := env.corrected.foldl State.eccCorrected s
  let s := env.conflicts.foldl State.conflict s
  let s := if env.hbmCorrected = 0 then s else s.bump HBM.CORR_READS env.hbmCorrected
  env.activates.foldl (fun s a => s.hbmCommand (hbmUnit a.1 a.2.1 a.2.2.1 a.2.2.2 0)) s

/-- Line records and seals that nothing looks at again go; the first window of R599 has its length from its first line time on. -/
def State.forget (s : State) : State :=
  { s with comp := { s.comp with recs := s.comp.recs.filter fun r => decide (s.lineTime < r.1 + 512) }
           split := { s.split with absent := s.split.absent.filter fun r => (s.slotOfJob r.job).isSome }
           led := { s.led with digestN := if s.led.digestN = 0 then bits (s.reg LEDGER.DIGEST_CFG) 15 0 else s.led.digestN
                               seals := s.led.seals.filter fun g => decide (s.lineTime ≤ g.1 + 0xFFFF) } }

/-- The line time that begins: the line planned for it is composed, the next one is planned, and the frames of the next line time are
computed (R150, R191). -/
def State.lineWork (s : State) (env : LineEnv) : State :=
  let s := (s.placeEdge.composeLine env).fedTileVerdicts.planFor (s.lineTime + 1) env
  let s := s.powerVoids.safeMarks
  let s := (List.range 4).foldl State.combineNext s
  ((s.splitFrames env).forget).memoryEvents env

/-- Runs that the last line time did not carry on close their tallies (R586). -/
def State.closeLineTallies (s : State) : State := (s.closeTallies fun t => t.byLine && decide (t.last + 1 < s.lineTime)).closeRuns

/-- What an edge fixes for its line time: WEB.RATE as the planner judges by it (R310), and F has come for the zones that wait for it (R445). -/
def State.edgeBegins (s : State) : State := ({ s with comp := { s.comp with rate := s.reg WEB.RATE } } : State).holdsBegin

/-- What happens at the hand-over edge of a line time and in the line time itself (R35, R287). -/
def State.lineEdge (s : State) (env : LineEnv) : State :=
  let s := s.webRuns.trigOut.closeLineTallies.takeDeferred
  let s := (s.edgeBegins.sendMarkers.abandon env.unsent).settleLost.handOverLine.sendSegments.drive
  let s := s.jobEdge.lineWork env
  (s.paceRequest 0).headSync

/-- LINE_EVENT: no line event is made while WEB.CTRL.EN is 0 (R287, R296); in a replay they come from the pacer (R602). -/
def State.lineEvent (s : State) (env : LineEnv) : State :=
  if s.enabled pWEB && !s.replaying then
    let s := if s.source = srcTRIGGER then s else s.lineReached.alongStep
    (s.linePassed env.unsent).countLine.lineEdge env
  else s

/-- LINE_EVENT (R287). -/
def execLineEvent (env : LineEnv) (s : State) : Host.Outcome State Fault Refusal := .next (settle s (s.lineEvent env))

/-! ### Triggers (R302) -/

/-- MIN_GAP of TRIG_CFG as it acts (R318). -/
def State.minGap (s : State) : Nat := max 2222 (bits (s.reg WEB.TRIG_CFG) 11 0)

/-- R302: an ignored edge. -/
def State.trigIgnored (s : State) : State :=
  let s := (s.bump WEB.TRIG_IGNORED 1).report pWEB V.TRIG_IGNORED 0 1 [] [] none none false
  let fault := s.slotsBusy && !s.web.trigFault
  let s : State := { s with web := { s.web with trigRun := true, trigFault := s.web.trigFault || fault } }
  if fault then s.lastingFault 2 2 else s

/-- R302: an accepted edge ends a run of ignored ones, and is a line event. -/
def State.trigAccepted (s : State) (env : LineEnv) : State :=
  let s := (s.closeCause V.TRIG_IGNORED 0).faultEnds 2
  let s : State := { s with web := { s.web with trigRun := false, trigFault := false } }
  let s := s.lineEvent env
  s.captured s.triggerError

/-- TRIGGER_EDGE: an edge of LINE_TRIG_IN that has held its level (R302). -/
def State.triggerEdge (s : State) (rising : Bool) (gapNs : Nat) (env : LineEnv) : State :=
  if !s.webOn srcTRIGGER || bit (s.reg WEB.TRIG_CFG) 24 == rising then s
  else if gapNs < s.minGap then s.trigIgnored
  else s.trigAccepted env

/-- TRIGGER_EDGE (R302). -/
def execTriggerEdge (rising : Bool) (gapNs : Nat) (env : LineEnv) (s : State) : Host.Outcome State Fault Refusal :=
  .next (settle s (s.triggerEdge rising gapNs env))

/-! ### The press (R314) -/

/-- PRESS_RUN_FALL: a timeline fault while a slot is LEADING, WRITING or DRAINING. -/
def State.pressFall (s : State) : State :=
  let s : State := { s with web := { s.web with press := false } }
  (if s.slotsBusy then s.lastingFault 7 7 else s).headSync

/-- PRESS_RUN_FALL (R314). -/
def execPressRunFall (s : State) : Host.Outcome State Fault Refusal := .next (settle s s.pressFall)

/-- PRESS_RUN_RISE: the condition of the fault ends (R314, R315). -/
def State.pressRise (s : State) : State := (({ s with web := { s.web with press := true } } : State).faultEnds 7).headSync

/-- PRESS_RUN_RISE (R314). -/
def execPressRunRise (s : State) : Host.Outcome State Fault Refusal := .next (settle s (s.wakes wakePRESS_RUN).pressRise)

/-! ### Verdicts (R276) -/

/-- VERDICT (R276), with HEAD_SAFE where slots become EMPTY (R478). -/
def execVerdict (s : State) : Host.Outcome State Fault Refusal := .next (settle s s.verdicts.headSync)

/-! ### Time while no command waits (log 2) -/

/-- A period of the always-on clock in ns, at its nominal 32.768 kHz (R614; DESIGN CHOICE, log 79: the spec leaves it 30 % either way). -/
def aonPeriod : Nat := 30518

/-- The LFSR x^16 + x^14 + x^13 + x^11 + 1 after one clock (R626; its form and start are log 79). -/
def lfsrNext (v : Nat) : Nat := v * 2 % 2 ^ 16 + if bit v 15 ^^ bit v 13 ^^ bit v 12 ^^ bit v 10 then 1 else 0

/-- R627: a tamper event; in OFF it sets only the latch. -/
def State.tamperEvent (s : State) : State :=
  let s : State := { s with life := { s.life with latch := true } }
  if s.power.st = 4 then s else (((s.wipe 1).error pLIFE E.TAMPER []).bump LIFE.TAMPERS 1).raise pLIFE 2

/-- One always-on clock: TAMPER_A takes the next bit of the LFSR, and TAMPER_B is sampled: `back` says that it has the driven bit. Two samples in a
row that differ are a tamper event (R626, R628). -/
def State.aonClock (s : State) (back : Bool) : State :=
  let l := lfsrNext s.life.lfsr
  let two := !back && s.life.mismatch
  let s := ({ s with life := { s.life with
    lfsr := l, mismatch := !back, unmatched := if back then s.life.unmatched - 1 else 16 } } : State).emit (.tamperA (bit l 0))
  if two then s.tamperEvent else s

/-- The level that TAMPER_A takes with the next always-on clock. -/
def State.nextTamperA (s : State) : Bool := bit (lfsrNext s.life.lfsr) 0

/-- `ns` pass in the always-on domain, whose clock runs the mesh while TAMPER_CFG.EN is 1 (R626); what differs comes with TAMPER. -/
def State.samplesPass (s : State) (ns : Nat) : State :=
  let a := s.life.aonAge + ns
  if !s.life.tamperEn then s
  else if aonPeriod ≤ a then ({ s with life := { s.life with aonAge := a - aonPeriod } } : State).aonClock true
  else { s with life := { s.life with aonAge := a } }

/-- One tick of the local time, and beside it the two fabric clocks of the generator and 2 ns for the limit inputs and the tamper mesh (R410,
R296, R470, R626). -/
def State.tickClocks (s : State) : State := (((s.ticks 1).generate 2).limitsPass 2).samplesPass 2

/-- A lane's transmitter sends codewords or training frames (R369, R371, R328). -/
def State.laneSends (s : State) (n : Nat) : Bool :=
  let l := s.laneOf n
  s.enabled pLANE && (if l.tstate = 6 then decide (2 ≤ l.link ∧ l.link ≤ 4)
    else if l.detect then decide (1 ≤ l.tstate ∧ l.tstate ≤ 5) else l.tstate == 1)

/-- Eighths of a UI that a lane sends in one tick of 2 ns (R357). -/
def State.laneTick (s : State) (n : Nat) : Nat := if bit (s.active LANE.RATE_CFG) (if n < 18 then 0 else 1) then 425 else 850

/-- What a lane sends next: a training frame in bring-up under DETECT (R371); the FILL of position 1,023, the next codeword of a segment, or an
IDLE codeword (R328, R333). -/
def State.laneNext (s : State) (n : Nat) : State :=
  let l := s.laneOf n
  if l.tstate ≠ 6 ∧ l.detect then s.emit (.training n (s.sentFields n))
  else if s.fillDue n then s.sendFill n
  else match s.openSeg n with
    | some g => s.sendNext n g
    | none => if n < 18 then s.headIdle n else s.peerIdle n

/-- A lane sends for one tick; when what it sends has ended, the next goes out. -/
def State.laneRun (s : State) (n : Nat) : State :=
  if s.laneSends n then
    let l := s.laneOf n
    let k := s.laneTick n
    if k < l.txLeft then s.setLane n fun l => { l with txLeft := l.txLeft - k }
    else (s.laneNext n).setLane n fun x => { x with txLeft := frameUi + l.txLeft - k }
  else s

/-- The transmitters of lanes 0 to 23 send for one tick. -/
def State.lanesRun (s : State) : State := (List.range 24).foldl State.laneRun s

/-- The generator makes a line event: the position has passed one, in a source other than TRIGGER (R296, R302), and 2,200 ns have passed since
the last (R289). -/
def State.makesLine (s : State) : Bool :=
  s.power.st != 4 && s.enabled pWEB && !s.replaying && s.source != srcTRIGGER && decide (2200 ≤ s.web.gap) && s.crossing

/-- What happens while no command waits: the clocks go on, the lanes send, COPY copies, and a line event that the generator makes joins the
queue (DESIGN CHOICE, log 2). In OFF only the always-on domain runs (R607, R626). -/
def State.tick (s : State) : State :=
  if s.power.st = 4 then settled s (s.samplesPass 2)
  else
  let t := settle s s.napResume.serveWrites.copyStep.tickClocks.lanesRun
  if t.makesLine then { t with pending := t.pending ++ [.lineEvent { unsent := none }] } else t

end Sys2Proof.Machine
end

