-- ==== Sys2Proof/Machine/Commit.lean ====
section
/-! DEFINITION. Commit groups: the agreement that each group must meet, and what an accepted commit starts (R31 to R34, and the register
rule of each page). -/

namespace Sys2Proof.Machine

/-! ### Regions (R483) -/

/-- A region: its device address and its size in bytes. -/
abbrev Region := Nat × Nat

/-- The bytes of two regions overlap. -/
def Region.meets (a b : Region) : Bool := overlaps a.1 a.2 b.1 b.2
/-- A region lies below device address 0xC_0000_0000, in HBM. -/
def Region.inHbm (a : Region) : Bool := decide (a.1 + a.2 ≤ scratchBase)
/-- A region at a scratch byte address lies within the 32 MiB of scratch. -/
def Region.inScratch (a : Region) : Bool := decide (a.1 + a.2 ≤ scratchSize)
/-- A region's base is a multiple of n bytes. -/
def Region.aligned (a : Region) (n : Nat) : Bool := a.1 % n == 0

/-- The regions of R483 in force. -/
def State.albumRegion (s : State) : Region := (s.active64 ALBUM.REGION_LO ALBUM.REGION_HI, s.active ALBUM.REGION_FRAMES * 2 ^ 21)
def State.leadRegion (s : State) : Region := (s.active64 TILE.LEAD_LO TILE.LEAD_HI, s.active TILE.LEAD_SIZE * 2 ^ 20)
def State.directRegion (s : State) : Region := (s.active64 TILE.DIRECT_LO TILE.DIRECT_HI, s.active TILE.DIRECT_SIZE * 2 ^ 20)
def State.mailbagRegion (s : State) : Region := (s.active64 HBM.MAILBAG_LO HBM.MAILBAG_HI, s.active HBM.MAILBAG_SIZE * 2 ^ 20)
def State.peerRegion (s : State) : Region := (s.active64 PEER.FWD_LO PEER.FWD_HI, 2 * s.active PEER.FWD_SIZE * 2 ^ 20)
def State.ledgerRegion (s : State) : Region := (s.active64 LEDGER.RING_LO LEDGER.RING_HI, s.active LEDGER.RING_SIZE * 2 ^ 20)
/-- The glyph pool at its scratch byte address. -/
def State.glyphRegion (s : State) : Region := (s.active FRANK.GLYPH_LO, s.active FRANK.GLYPH_SIZE * 2 ^ 10)
/-- A region as its registers are staged. -/
def State.stagedRegion (s : State) (lo hi size unit : Nat) : Region := (s.reg64 lo hi, s.reg size * unit)

/-- A power of two within bounds. -/
def powerIn (lo hi n : Nat) : Bool := decide (lo ≤ n) && decide (n ≤ hi) && 2 ^ Nat.log2 n == n
/-- A number within bounds (R39). -/
def within (lo hi n : Nat) : Bool := decide (lo ≤ n) && decide (n ≤ hi)
/-- No two elements of a list are equal. -/
def distinct (l : List Nat) : Bool := l.eraseDups.length == l.length

/-! ### The agreement of each page's groups -/

/-- MAIL group 1 (R82). -/
def State.mailAgrees (s : State) : Bool :=
  within 1 1250 (s.reg MAIL.BUDGET_TILE) && within 1 1638400 (s.reg MAIL.BUDGET_HBM) && within 1 32000 (s.reg MAIL.BUDGET_DEC)

/-- CMP group c + 1 (R111). -/
def State.cmpAgrees (s : State) (c : Nat) : Bool :=
  cmpRequestOk (s.reg64 (CMP.SRC_LO c) (CMP.SRC_HI c)) (s.reg (CMP.SRC_LEN c)) (s.reg64 (CMP.DST_LO c) (CMP.DST_HI c)) (s.reg (CMP.DST_LEN c))
    (s.reg (CMP.PARAM c)) && !(s.cmpOf c).run.any (·.client == clREGISTER)

/-- A decoder holds a letter of a kind whose decoding makes something (R118, R157). -/
def State.decoding (s : State) (k : Nat) : Bool := s.mail.decs.any fun d => d.any fun j => j.makes k

/-- A decoder holds album frames for an enclosure (R178). -/
def State.enclosing (s : State) : Bool := s.mail.decs.any fun d => d.any fun j => letterKind j.bytes == kENCLOSURE && !j.frames.isEmpty

/-- ALBUM group 1 (R153). -/
def State.albumAgrees (s : State) : Bool :=
  let r := s.stagedRegion ALBUM.REGION_LO ALBUM.REGION_HI ALBUM.REGION_FRAMES (2 ^ 21)
  r.aligned (2 ^ 21) && r.inHbm && !r.meets s.leadRegion && !r.meets s.directRegion && decide (s.reg ALBUM.REGION_FRAMES ≤ 16384) &&
  s.slots.all (fun x => x.stamps.isEmpty && x.enclosures.all fun e => e.frames.isEmpty) && !s.decoding kSTAMP && !s.enclosing

/-- TILE group 1 (R154): the slots in use name distinct physical tiles, none of them FAILED. -/
def State.mapAgrees (s : State) : Bool :=
  let ps := (List.range s.tileSlots).map fun k => bits (s.reg (TILE.MAP k)) 5 0
  ps.all (fun p => decide (p < 34) && !s.comp.failed.contains p) && distinct ps

/-- TILE group 2 (R154). -/
def State.tileAgrees (s : State) : Bool :=
  let a := s.stagedRegion TILE.LEAD_LO TILE.LEAD_HI TILE.LEAD_SIZE (2 ^ 20)
  let b := s.stagedRegion TILE.DIRECT_LO TILE.DIRECT_HI TILE.DIRECT_SIZE (2 ^ 20)
  a.aligned 65536 && b.aligned 65536 && a.inHbm && b.inHbm && !a.meets b && !a.meets s.albumRegion && !b.meets s.albumRegion &&
  decide (s.reg TILE.LEAD_SIZE ≤ 1024) && decide (s.reg TILE.DIRECT_SIZE ≤ 4096) && !s.jobsActive && s.directUsed == 0

/-- FRANK group 1 (R185). -/
def State.glyphAgrees (s : State) : Bool :=
  let r : Region := (s.reg FRANK.GLYPH_LO, s.reg FRANK.GLYPH_SIZE * 1024)
  r.aligned 4096 && s.reg FRANK.GLYPH_SIZE % 4 == 0 && decide (s.reg FRANK.GLYPH_SIZE ≤ 4096) && r.inScratch &&
  s.slots.all (fun x => x.glyphs.isEmpty) && !s.decoding kGLYPH_SET

/-- FRANK group 2 (R185). -/
def State.reloadAgrees (s : State) : Bool :=
  let x := s.slotOf (bits (s.reg FRANK.RELOAD_SEL) 17 16)
  (x.st == .staged || x.st == .leading || x.st == .writing) &&
  (x.fieldOf (bits (s.reg FRANK.RELOAD_SEL) 7 0)).any fun f =>
    f.kind == 0 && decide (s.reg64 FRANK.RELOAD_LO FRANK.RELOAD_HI < f.modulus)

/-- SPLIT group 1 (R219). -/
def State.rowsAgree (s : State) : Bool :=
  let cfg := s.reg SPLIT.ROW_CFG
  let rows := bits cfg 10 8
  let strips := bits cfg 20 16
  let d : Region := (s.reg SPLIT.DELAY_LO, 256 * (4096 * strips))
  let b : Region := (s.reg SPLIT.BEAM_LO, 4 * 327680)
  within 1 5 rows && within 8 64 (bits cfg 6 0) && within 1 16 strips && decide ((rows - 1) * bits cfg 6 0 ≤ 255) && d.inScratch &&
  b.inScratch && !d.meets b && !d.meets s.glyphRegion && !b.meets s.glyphRegion && !s.jobsActive

/-- SPLIT group 2 (R219). -/
def State.beamAgrees (s : State) : Bool :=
  decide (bits (s.reg SPLIT.BEAM_SEL) 18 16 < s.rows) &&
  decide (bits (s.reg SPLIT.BEAM_SEL) 15 0 + bits (s.reg SPLIT.BEAM_COUNT) 16 0 ≤ s.columns) &&
  !(bit (s.reg SPLIT.BEAM_WMASK) 2 && bits (s.reg SPLIT.BEAM_DATA) 17 16 == 3)

/-- PLACE group 1 (R249). -/
def State.shiftsAgree (s : State) : Bool :=
  ((List.range 5).all fun k => bits (s.reg (PLACE.ROW_SHIFT k)) 6 0 != 64) && !s.jobsActive

/-- PLACE group 2 (R249). -/
def State.weaveAgrees (s : State) : Bool :=
  within 1 1023 (bits (s.reg PLACE.WEAVE_CFG) 19 10) && within 1 4095 (bits (s.reg PLACE.WEAVE_LIMIT) 27 16) &&
  within 1 32767 (bits (s.reg PLACE.WEAVE_LIMIT) 14 0)

/-- PLACE group 3 (R249). -/
def State.overlapAgrees (s : State) : Bool :=
  let width (d : Nat) : Nat := bits (s.reg (PLACE.OVL_CFG d)) 9 0
  let locals (d : Nat) : List Nat :=
    (((List.range 4).map fun p => s.reg (PLACE.OVL_PAIR d p)).filter fun w => bit w 31).map fun w => bits w 5 0
  decide (width 0 ≤ 512) && decide (width 1 ≤ 512) && decide (width 0 + width 1 ≤ s.columns) &&
  ((List.range 2).all fun d => within 1 63 (bits (s.reg (PLACE.OVL_CFG d)) 21 16) && distinct (locals d)) && !s.jobsActive

/-- PLACE group 4 (R249). -/
def State.rampAgrees (s : State) : Bool :=
  ((List.range 256).all fun m => decide (bits (s.reg (PLACE.RAMP m)) 24 16 ≤ 256) && decide (bits (s.reg (PLACE.RAMP m)) 8 0 ≤ 256)) &&
  !s.jobsActive

/-- SEAL group 1 (R284). -/
def State.readoutAgrees (s : State) : Bool := within 2 1024 (bits (s.reg SEAL.READOUT) 10 0) && !s.jobsActive

/-- WEB group 1 (R318). -/
def State.sourceAgrees (s : State) : Bool :=
  let num := bits (s.reg WEB.ENC_SCALE) 31 16
  bits (s.reg WEB.SOURCE) 1 0 != 3 && decide (1 ≤ num) && decide (num ≤ bits (s.reg WEB.ENC_SCALE) 15 0) && !s.jobsActive

/-- WEB group 2 (R318). -/
def State.followAgrees (s : State) : Bool :=
  within 125 1000 (bits (s.reg WEB.LOOP_CFG) 9 0) && within 0 15 (bits (s.reg WEB.LOOP_CFG) 19 16) &&
  within 8 31 (bits (s.reg WEB.LOOP_CFG) 28 24) && decide (bits (s.reg WEB.COMP) 5 0 ≤ 63)

/-- JLINK group 1 (R353). -/
def State.laneMapAgrees (s : State) : Bool :=
  let ls := (List.range s.strips).map fun m => bits (s.reg (JLINK.LANE_MAP m)) 4 0
  (ls.zipIdx.all fun p => decide (p.1 < 18) && headGroup p.1 == p.2 / 8 && ((s.laneOf p.1).link == hUP || (s.laneOf p.1).link == hSPARE)) &&
  distinct ls

/-- LANE group 1 (R389): every lane whose rate changes is OFF or FAIL. -/
def State.ratesAgree (s : State) : Bool :=
  let changed (n : Nat) : Bool :=
    let i := if n < 18 then 0 else if n < 24 then 1 else 8
    bit (s.reg LANE.RATE_CFG) i != bit (s.active LANE.RATE_CFG) i
  (List.range 25).all fun n => !changed n || (s.laneOf n).tstate == 0 || (s.laneOf n).tstate == 7

/-- Both sides of the chain are DOWN. -/
def State.sidesDown (s : State) : Bool := !(s.sideOf 0).up && !(s.sideOf 1).up

/-- PEER group 1 (R408). -/
def State.chainAgrees (s : State) : Bool :=
  let cfg := s.reg PEER.CHAIN_CFG
  let len := bits cfg 8 4
  let ds := (List.range len).map fun p => bits (s.reg (PEER.POS_DEV p)) 9 0
  within 1 16 len && decide (bits cfg 3 0 < len) && ds.getD (bits cfg 3 0) 1024 == s.deviceNo && distinct ds &&
  ds.contains (bits cfg 21 12) && s.sidesDown

/-- PEER group 2 (R408). -/
def State.forwardAgrees (s : State) : Bool :=
  let r := s.stagedRegion PEER.FWD_LO PEER.FWD_HI PEER.FWD_SIZE (2 ^ 21)
  r.aligned 65536 && r.inHbm && !r.meets s.albumRegion && !r.meets s.leadRegion && !r.meets s.directRegion &&
  within 1 256 (s.reg PEER.FWD_SIZE) && s.sidesDown

/-- TIME group 1 (R413). -/
def State.incrementAgrees (s : State) : Bool :=
  let inc := s.reg TIME.INC_NS * 2 ^ 32 + s.reg TIME.INC_FRAC
  let ppm := bits (s.reg TIME.RATE_LIMIT) 8 0
  let lim := 2 ^ 33 * ppm / 1000000
  inc != 0 && within 1 500 ppm && within (2 ^ 33 - lim) (2 ^ 33 + lim) inc

/-- LOOP group 1 (R453). -/
def State.zonesAgree (s : State) : Bool :=
  within 1250 10000 (bits (s.reg LOOP.SAMPLE_CFG) 13 0) && within 1 64 (bits (s.reg LOOP.SAMPLE_CFG) 22 16) &&
  s.loops.zone.all fun z => z.st == .off

/-- LOOP group 2, the inactive bank (R448, R453). -/
def State.bankAgrees (s : State) : Bool := decide (s.omin (1 - s.loops.bank) < s.omax (1 - s.loops.bank)) && !s.loops.pendingSwap

/-- LOOP group 3 (R453). -/
def State.zoneColsAgree (s : State) : Bool :=
  ((List.range s.zones).all fun z =>
    let c := s.reg (LOOP.ZONE_COLS z)
    decide (bits c 15 0 ≤ bits c 31 16) && decide (bits c 31 16 < s.columns)) && !s.jobsActive

/-- HBM groups 2 to 4 (R508). -/
def State.actAgrees (s : State) : Bool := within 256 65535 (bits (s.reg HBM.ACT_CFG) 31 16) && within 1 4 (bits (s.reg HBM.ACT_CFG) 2 0)
def State.mailbagAgrees (s : State) : Bool :=
  let r := s.stagedRegion HBM.MAILBAG_LO HBM.MAILBAG_HI HBM.MAILBAG_SIZE (2 ^ 20)
  r.aligned 65536 && r.inHbm && !r.meets s.albumRegion && !r.meets s.leadRegion && !r.meets s.directRegion && !r.meets s.peerRegion &&
  within 16 16384 (s.reg HBM.MAILBAG_SIZE) && s.slots.all fun x => !x.occupied
def State.repairAgrees (s : State) : Bool := decide (bits (s.reg HBM.REPAIR_SEL) 21 16 ≤ 47)

/-- DMA group q + 1 (R560). -/
def State.cqAgrees (s : State) (q : Nat) : Bool :=
  s.reg (DMA.CQ_BASE_LO q) % 64 == 0 && powerIn 16 65536 (s.reg (DMA.CQ_SIZE q)) &&
  (List.range 32).all fun n => !(s.cqOf n == q && s.enabled (pRING n))

/-- RING[n] group 1 (R561). -/
def State.ringAgrees (s : State) (n : Nat) : Bool :=
  !s.enabled (pRING n) && (s.ringOf n).taken.isEmpty && s.reg (RING.BASE_LO n) % 64 == 0 && powerIn 8 65536 (s.reg (RING.SIZE n))

/-- LEDGER group 1 (R605). -/
def State.ledgerRingAgrees (s : State) : Bool :=
  let r := s.stagedRegion LEDGER.RING_LO LEDGER.RING_HI LEDGER.RING_SIZE (2 ^ 20)
  r.aligned 65536 && r.inHbm && !r.meets s.albumRegion && !r.meets s.leadRegion && !r.meets s.directRegion && !r.meets s.peerRegion &&
  !r.meets s.mailbagRegion && powerIn 16 4096 (s.reg LEDGER.RING_SIZE) && !s.enabled pLEDGER

/-- LEDGER group q + 2 (R605). -/
def State.queueAgrees (s : State) (q : Nat) : Bool :=
  s.reg (LEDGER.Q_BASE_LO q) % 64 == 0 && powerIn 64 (2 ^ 20) (s.reg (LEDGER.Q_SIZE q)) && !bit (s.reg (LEDGER.Q_FILTER q)) 31

/-- LEDGER group 10 (R605). -/
def State.replayAgrees (s : State) : Bool :=
  let r := s.stagedRegion LEDGER.REPLAY_LO LEDGER.REPLAY_HI LEDGER.REPLAY_SIZE (2 ^ 20)
  r.aligned 65536 && r.inHbm && !r.meets s.albumRegion && !r.meets s.leadRegion && !r.meets s.directRegion && !r.meets s.mailbagRegion &&
  !r.meets s.peerRegion && !r.meets s.ledgerRegion && within 1 4096 (s.reg LEDGER.REPLAY_SIZE) && !bit (s.reg LEDGER.REPLAY_CTRL) 31

/-- CHIP group 1 (R630). -/
def State.deviceAgrees (s : State) : Bool := s.slots.all (fun x => !x.occupied) && s.sidesDown

/-- The staged fields of group `g` of page `p` agree; false where the number names no group (R31). AXIS decides its groups itself (R461). -/
def State.agrees (s : State) (p g : Nat) : Bool :=
  match p, g with
  | 0, 1 => s.deviceAgrees
  | 4, g => within 1 8 g && s.cqAgrees (g - 1)
  | 7, 1 => s.rateAllowed
  | 7, 2 => s.actAgrees
  | 7, 3 => s.mailbagAgrees
  | 7, 4 => s.repairAgrees
  | 8, 1 => s.mailAgrees
  | 10, g => within 1 2 g && s.cmpAgrees (g - 1)
  | 11, 1 => s.albumAgrees
  | 12, 1 => s.mapAgrees
  | 12, 2 => s.tileAgrees
  | 13, 1 => s.glyphAgrees
  | 13, 2 => s.reloadAgrees
  | 14, 1 => s.rowsAgree
  | 14, 2 => s.beamAgrees
  | 15, 1 => s.shiftsAgree
  | 15, 2 => s.weaveAgrees
  | 15, 3 => s.overlapAgrees
  | 15, 4 => s.rampAgrees
  | 16, 1 => s.readoutAgrees
  | 17, 1 => s.sourceAgrees
  | 17, 2 => s.followAgrees
  | 18, 1 => s.laneMapAgrees
  | 19, 1 => s.ratesAgree
  | 20, 1 => s.chainAgrees
  | 20, 2 => s.forwardAgrees
  | 21, 1 => s.incrementAgrees
  | 21, 2 => true
  | 23, 1 => s.zonesAgree
  | 23, 2 => s.bankAgrees
  | 23, 3 => s.zoneColsAgree
  | 27, 1 => s.ledgerRingAgrees
  | 27, 10 => s.replayAgrees
  | 27, g => within 2 9 g && s.queueAgrees (g - 2)
  | p, g => decide (28 ≤ p) && decide (p < 60) && g == 1 && s.ringAgrees (p - 28)

/-! ### What an accepted commit of a group that is not shadowed starts -/

/-- The block's part of an accepted commit. -/
def State.commitActs (s : State) (p g : Nat) : State :=
  match p, g with
  | 4, g => s.cqCommitted (g - 1)
  | 7, 1 => s.rateStart
  | 14, 1 => s.mapSync.patrolSync
  | 17, 1 => { s with web := { s.web with cardFirst := true } }
  | 21, 2 => s.correction
  | 27, 1 => { s with led := { s.led with waiting := [], written := 0, segment := none } }
  | 27, 10 => s
  | 27, g => (s.setReg (LEDGER.Q_HEAD (g - 2)) 0).setReg (LEDGER.Q_TAIL (g - 2)) 0
  | p, _ => if 28 ≤ p then s.ringCommitted (p - 28) else s

/-- R31, R33, R36: an accepted commit of a shadowed group goes into its pending set; one of the hand-over cycle waits one hand-over longer. -/
def State.commitPend (s : State) (p g : Nat) (late : Bool) : State :=
  let job := if p = pFRANK then (s.slotOf (bits (s.reg FRANK.RELOAD_SEL) 17 16)).job else 0
  let s := s.commitAccepted p
  { s with pend := (s.pend.filter fun q => !(q.page == p && q.group == g && q.late == late)) ++
                     [{ page := p, group := g, vals := s.staged p g, late := late, job := job }] }

/-- R448: an accepted commit of the inactive bank. -/
def State.commitBank (s : State) (late : Bool) : State :=
  let s := s.commitAccepted pLOOP
  { s with loops := { s.loops with pendingSwap := true, swapLate := late } }

/-- The group hands over at an event (R33, R448). -/
def groupShadowed (p g : Nat) : Bool := (p == pLOOP && g == 2) || groupEvent p g != .none

/-- COMMIT.GROUP written with a number that is not 0 (R31 to R37). A COMMIT write of a shadowed group that lands in its hand-over cycle sets LATE,
whether or not it is refused (R36). -/
def State.commitOf (s : State) (p g : Nat) (late : Bool) : State :=
  let s := s.setReg (COMMIT p) (putField (s.reg (COMMIT p)) 7 0 g)
  let s := if late && groupShadowed p g then s.setLate p else s
  if p = pAXIS ∧ 1 ≤ g ∧ g ≤ 4 then s.axisCommit (g - 1)
  else if p = pAXIS ∧ g = 5 then s.spliceCommit
  else if !s.agrees p g then s.commitRejected p
  else if p = pLOOP ∧ g = 2 then s.commitBank late
  else if groupEvent p g ≠ .none then s.commitPend p g late
  else (s.commitNow p g).commitActs p g

/-- A write of COMMIT: the group number 0 commits nothing (R32). -/
def State.commitWrite (s : State) (p g : Nat) (late : Bool) : State :=
  if g = 0 then s.setReg (COMMIT p) (putField (s.reg (COMMIT p)) 7 0 0) else s.commitOf p g late

/-- COMMIT_GROUP (R31). -/
def execCommitGroup (src : Fin 60) (group : Byte) (late : Bool) (s : State) : Host.Outcome State Fault Refusal :=
  .next (settle s ((s.wakeEvent wakeREGISTER).commitWrite src group.toNat late))

end Sys2Proof.Machine
end

