-- ==== Sys2Proof/Machine/Power.lean ====
section
/-! DEFINITION. Power states, resets, clocks, the life cycle, the tamper mesh and the TAP (R607 to R633, R649). -/

namespace Sys2Proof.Machine

/-! ### Idle and wake (R609 to R613) -/

/-- R610: the device is quiet. -/
def State.quiet (s : State) : Bool :=
  (s.slots.all fun x => x.released.isEmpty) && (s.mail.decs.all (·.isNone)) && (s.cmp.all fun u => u.run.isNone) &&
  ((List.range 9).all fun u => (s.chkOf u).scan.isNone) && s.chk.scrub.isNone && s.lanes.es.isNone && s.scr.retiring.isNone &&
  s.vault.wiping.isNone && (s.dma.ring.all fun r => r.taken.isEmpty) && s.hbm.sweep.isNone && s.hbm.repair.isNone && !s.hbm.rateBusy &&
  !s.web.press && (s.axes.all fun x => x.st == 0) && (s.loops.zone.all fun z => z.st == .off)

/-- PWR.LTR as it acts (R613, R631). -/
def State.ltr (s : State) : Nat := if s.host.d3hot then 2000000 else min 2000000 (bits (s.reg PWR.LTR) 20 0)

/-- R609: the lowest of READY, DOZE and NAP that the latency tolerance, CTRL.EN and R610 allow. -/
def State.idleState (s : State) : Nat :=
  if s.enabled pPWR && s.quiet then (if 1500 ≤ s.ltr then pwNAP else if 60 ≤ s.ltr then pwDOZE else pwREADY) else pwREADY

/-- POWER_IDLE: no wake event has come for IDLE_HOLD us (R609). -/
def State.powerIdle (s : State) : State :=
  if s.power.st = pwWRITE ∨ s.power.st = pwOFF then s else s.powerTo s.idleState

/-- POWER_IDLE (R609). -/
def execPowerIdle (s : State) : Host.Outcome State Fault Refusal := .next (settle s s.powerIdle)

/-- LAST_WAKE of a cause (R631). -/
def wakeCode : WakeCause → Nat
  | .register => 1
  | .memory => 2
  | .job => 3
  | .pressRun => 4
  | .splice => 5
  | .network => 6
  | .peer => 7
  | .d3Exit => 8

/-- WAKE (R611). -/
def execWake (cause : WakeCause) (s : State) : Host.Outcome State Fault Refusal := .next (settle s (s.wakes (wakeCode cause)).powerSync)

/-! ### Resets (R617 to R621) -/

/-- What every reset of the whole device leaves: registers and blocks at their reset values; the levels of the input balls, the life cycle and
what has been sent stay. -/
def State.blank (s : State) : State :=
  { pending := s.pending, out := s.out, free := s.free, life := { s.life with why := 0, codes := [0, 0, 0, 0] }
    web := { press := s.web.press, spliceN := s.web.spliceN, encA := s.web.encA, encB := s.web.encB }
    axes := s.axes.map fun x => { lo := { level := x.lo.level, age := x.lo.age }, hi := { level := x.hi.level, age := x.hi.age } }
    chk := chkReset }

/-- Steps 2 and 6 of R620 and the RESET record of R621. -/
def State.started (s : State) (kind : Nat) : State :=
  let s : State := { s with power := { s.power with st := pwREADY, clocks := 0x7F, ready := true, resetCause := kind } }
  let t := (if s.life.latch then 4 else 0) + (if s.life.mismatch then 2 else 0) + if s.life.vbatLost then 1 else 0
  s.event pCHIP V.RESET [.f 1 kind, .f 1 s.life.st, .f 1 t]

/-- A CORE reset (R618): scratch, the vault and MAP stay, and for kinds 2 and 3 the PCI Express link. The contents of HBM become undefined: every
byte of it has a free value from now on (log 3). -/
def State.coreReset (s : State) (kind : Nat) : State :=
  let t := s.blank
  let t : State := { t with
    mem := s.mem.filter fun c => decide (scratchBase ≤ c.1)
    free := s.free + 1
    hbm := { era := some s.free }
    scr := { t.scr with map := s.scr.map, state := s.scr.state.map fun x => if x = 2 then 1 else x, bad := s.scr.bad }
    vault := { s.vault with lockedRun := false, wiped := 0 }
    host := if kind = 1 then {} else { link := s.host.link, d3hot := s.host.d3hot, maxPayload := s.host.maxPayload, maxRead := s.host.maxRead,
                                       ecrcGen := s.host.ecrcGen, ecrcCheck := s.host.ecrcCheck }
    tap := s.tap }
  (t.started kind).mailHeld

/-- CORE: CHIP.RESET with OP CORE (R618). -/
def execCore (s : State) : Host.Outcome State Fault Refusal := .next (settle s (s.coreReset 2))
/-- PERST: PERST_N low (R618). -/
def execPerst (s : State) : Host.Outcome State Fault Refusal := .next (settle s (s.coreReset 1))

/-- POWER_OFF: the main rails fall (R607), and the board pulls HEAD_SAFE low (R642). -/
def State.powerOff (s : State) : State := 
  { s with headSafe := false, tap := {}, scr := { s.scr with clearing := true }, power := { s.power with st := pwOFF, clocks := 0, ready := false } }
/-- POWER_OFF (R607). -/
def execPowerOff (s : State) : Host.Outcome State Fault Refusal := .next (settle s s.powerOff)

/-- R625: programming that a power failure interrupted has left the old state or the new one. -/
def State.interrupted (s : State) : State :=
  match s.life.target with
  | none => s
  | some t =>
    let f := s.fresh
    { f.2 with life := { s.life with target := none, st := if f.1 % 2 = 0 then s.life.st else t } }

/-- R628: the always-on domain after a loss of VBAT; the spec states no EN for FIELD (log 3). -/
def State.vbatLoss (s : State) : State :=
  if s.life.st = 2 then
    let f := s.fresh
    let s : State := { f.2 with life := { s.life with latch := true, mismatch := false, unmatched := 0, vbatLost := true, tamperEn := f.1 % 2 == 1 } }
    ((s.error pLIFE E.TAMPER []).bump LIFE.TAMPERS 1).raise pLIFE 2
  else { s with life := { s.life with latch := false, mismatch := false, unmatched := 0, vbatLost := true, tamperEn := false } }

/-- POWER_ON: RESET_N rises (R525, R618, R620, R621, R624, R625, R628). -/
def State.powerOn (s : State) (vbatLost : Bool) : State :=
  let t := s.blank.clearScratch.interrupted
  let t : State := { t with life := { t.life with wrongCodes := 0 } }
  let t := if vbatLost then t.vbatLoss else t
  (t.started 0).mailHeld

/-- POWER_ON (R618). -/
def execPowerOn (vbatLost : Bool) (s : State) : Host.Outcome State Fault Refusal := .next (settled s (s.powerOn vbatLost))

/-- FLR: HOST, DMA and every RING page, the MSI-X table and IRQ_ROUTE; the rings halt (R537, R618). -/
def State.flr (s : State) : State :=
  let s := (List.range 32).foldl State.ringLinkDown s
  let rings := s.dma.ring.map fun _ => ({ halted := true } : Ring)
  let s := ([pHOST, pDMA] ++ (List.range 32).map pRING).foldl State.resetPageRegs s
  let route (a : Nat) : Bool := decide (CHIP.IRQ_ROUTE 0 ≤ a) && decide (a < CHIP.IRQ_ROUTE 60)
  { s with
    regs := s.regs.filter fun r => !route r.1
    dma := { s.dma with ring := rings, phase := List.replicate 8 true, readBytes := 0, writeBytes := 0 }
    irq := { s.irq with table := List.replicate 64 {}, pba := [], holdoff := [] }
    host := { s.host with d3hot := false, maxRead := 512 }
    power := { s.power with resetCause := 4 } }

/-- FLR (R618). -/
def execFlr (s : State) : Host.Outcome State Fault Refusal := .next (settle s s.flr)

/-- State of a page at reset (R618, R619). -/
def State.resetBlock (s : State) (p : Nat) : State :=
  if p = pDEC then { s with mail := { s.mail with decs := List.replicate 8 none, decBytes := List.replicate 8 0 } }
  else if p = pCMP then { s with cmp := List.replicate 2 {} }
  else if p = pLANE then { s with lanes := {}, power := { s.power with napped := [] } }
  else if p = pPEER then { s with peers := {} }
  else if p = pTIME then ({ s with time := {} } : State).closeCause E.OFFSET_BEYOND_SLEW 0
  else if p = pETH then { s with eth := {} }
  else if p = pLOOP then { s with loops := {} }
  else if p = pAXIS then { s with axes := s.axes.map fun x =>
      { lo := { level := x.lo.level, age := x.lo.age }, hi := { level := x.hi.level, age := x.hi.age } } }
  else if p = pSAMPLE then { s with samples := List.replicate 16 none, sampleRun := [] }
  else if p = pCHK then { s with chk := chkReset }
  else { s with led := {} }

/-- Pages that a BLOCK reset may reset (R619). -/
def blockPages : List Nat := [pDEC, pCMP, pLANE, pPEER, pTIME, pETH, pLOOP, pAXIS, pSAMPLE, pCHK, pLEDGER]

/-- BLOCK: a reset of one page, or RST_REFUSED (R619). -/
def State.blockReset (s : State) (p : Nat) : State :=
  if blockPages.contains p && s.power.st != pwWRITE && !s.enabled p then ((s.resetPageRegs p).resetBlock p).headSync
  else s.setBits (STATUS pCHIP) 64

/-- BLOCK (R619). -/
def execBlock (page : BitVec 6) (s : State) : Host.Outcome State Fault Refusal := .next (settle s ((s.wakeEvent wakeREGISTER).blockReset page.toNat))

/-- A write of CHIP.RESET with ACT at 1 (R630). -/
def State.chipReset (s : State) (v : Nat) : State := if bit v 0 then s.blockReset (bits v 21 16) else s.coreReset 2

/-! ### PLLs (R617) -/

/-- PLL_UNLOCK: domains 4 and 6 stop, every other one makes a CORE reset (R617). -/
def State.pllUnlock (s : State) (d : Nat) : State :=
  if d = 4 ∨ d = 6 then
    ({ s with power := { s.power with clocks := putBit s.power.clocks d false, stopped := s.power.stopped.filter (· != d) ++ [d] } } : State).raise
      pCHIP 2
  else s.coreReset 3

/-- PLL_UNLOCK (R617). -/
def execPllUnlock (domain : Fin 7) (s : State) : Host.Outcome State Fault Refusal := .next (settle s (s.pllUnlock domain))

/-- PLL_RELOCK: the bit sets again, with a record; the spec states no code for it (R617, log 21). -/
def State.pllRelock (s : State) (d : Nat) : State :=
  if s.power.stopped.contains d then
    let s : State := { s with power := { s.power with clocks := putBit s.power.clocks d true, stopped := s.power.stopped.filter (· != d) } }
    (s.event pCHIP (evCode pCHIP Config.pllRelockEvent.toNat) [.f 1 d, .lt s.lineTime]).requestsLand
  else s

/-- PLL_RELOCK (R617). -/
def execPllRelock (domain : Fin 7) (s : State) : Host.Outcome State Fault Refusal := .next (settle s (s.pllRelock domain))

/-! ### The life cycle (R622 to R625) -/

/-- WHY of R632. -/
def whyNOT_ALLOWED : Nat := 1
def whyBUSY : Nat := 2
def whyCODE : Nat := 3
def whyLOCKOUT : Nat := 4
def whyFUSE : Nat := 5

/-- R623: a request is refused. -/
def State.lifeRefused (s : State) (why : Nat) : State :=
  (({ s with life := { s.life with why := why } } : State).error pLIFE E.LIFE_REFUSED []).raise pLIFE 4

/-- R624: the return code. -/
def State.returnCode (s : State) : List Byte :=
  let text : List Byte := [0x52, 0x45, 0x54, 0x55, 0x52, 0x4E, 0x45, 0x44]
  (aes256 (s.life.returnKey.map (·.toNat)) ((((s.life.idPage.drop 16).take 8) ++ text).map (·.toNat))).map (BitVec.ofNat 8)

/-- CODE[0] to CODE[3] as bytes (R632). -/
def State.codeBytes (s : State) : List Byte := s.life.codes.flatMap fun w => leBytes 4 w.toNat

/-- Transitions that a register request may make (R623). -/
def lifeAllowed (old new : Nat) : Bool := (old == 1 && new == 2) || (old == 2 && new == 3) || (decide (old < 4) && new == 4)

/-- An allowed transition starts (R625). -/
def State.lifeStart (s : State) (t : Nat) : State := { s with life := { s.life with target := some t } }

/-- A request of a transition with the right KEY (R623, R624). -/
def State.lifeRequest (s : State) (t : Nat) : State :=
  if !lifeAllowed s.life.st t then s.lifeRefused whyNOT_ALLOWED
  else if t = 3 ∧ 3 ≤ s.life.wrongCodes then s.lifeRefused whyLOCKOUT
  else if s.power.st = pwWRITE ∨ s.vault.wiping.isSome ∨ s.life.target.isSome then s.lifeRefused whyBUSY
  else if t = 3 then
    if s.codeBytes = s.returnCode then s.lifeStart t
    else ({ s with life := { s.life with wrongCodes := s.life.wrongCodes + 1 } } : State).lifeRefused whyCODE
  else s.lifeStart t

/-- LIFE_REQ: a write of LIFE.REQ with ACT at 1; without its KEY it has no effect (R623, R632). -/
def State.lifeReq (s : State) (key t : Nat) : State := if key = 0xC3 then s.lifeRequest t else s

/-- LIFE_REQ (R623). -/
def execLifeReq (key : Byte) (target : BitVec 3) (s : State) : Host.Outcome State Fault Refusal :=
  .next (settle s ((s.wakeEvent wakeREGISTER).lifeReq key.toNat target.toNat))

/-- R622, R625: the new state takes effect; in SCRAPPED the head transmitters are OFF. -/
def State.lifeTo (s : State) (t : Nat) : State :=
  let old := s.life.st
  let s : State := { s with life := { s.life with st := t, target := none } }
  let s := (((s.wipe 2).event pLIFE V.TRANSITION [.f 1 old, .f 1 t]).raise pLIFE 3).mailHeld
  if t = 4 then (List.range 18).foldl State.laneStop s else s

/-- TRANSITION: the programmed copies are verified (R625). -/
def State.transition (s : State) (verified : Bool) : State :=
  match s.life.target with
  | none => s
  | some t => if verified then s.lifeTo t else ({ s with life := { s.life with target := none } } : State).lifeRefused whyFUSE

/-- TRANSITION (R625). -/
def execTransition (verified : Bool) (s : State) : Host.Outcome State Fault Refusal := .next (settle s (s.transition verified))

/-! ### The tamper mesh (R626 to R628) -/

/-- TAMPER: levels of TAMPER_B at the next samples, while the mesh is driven (R626, R627). -/
def State.tamper (s : State) (samples : List Bool) : State :=
  if s.life.tamperEn then samples.foldl (fun s b => s.aonClock (b == s.nextTamperA)) s else s

/-- TAMPER (R627). -/
def execTamper (samples : List Bool) (s : State) : Host.Outcome State Fault Refusal := .next (settled s (s.tamper samples))

/-- TAMPER_CLEAR with ACT at 1: it acts where the last 16 samples matched (R628). -/
def State.tamperClear (s : State) : State :=
  if s.life.unmatched = 0 then ({ s with life := { s.life with latch := false } } : State).event pLIFE V.TAMPER_CLEARED [] else s

/-- TAMPER_CLEAR (R628). -/
def execTamperClear (s : State) : Host.Outcome State Fault Refusal := .next (settle s (s.wakeEvent wakeREGISTER).tamperClear)

/-! ### JTAG (R622, R623, R649) -/

/-- R622: full test access. -/
def State.testAccess (s : State) : Bool := s.life.st == 0 || s.life.st == 1 || s.life.st == 3

/-- Balls of the boundary-scan chain, every LV33 ball but those of JTAG (R635, R649), in the order of R635 (DESIGN CHOICE, log 14): 0 PERST_N,
1 TIME_REF, 2 to 4 ENC_A, ENC_B, ENC_Z, 5 LINE_TRIG_IN, 6 LINE_TRIG_OUT, 7 PRESS_RUN, 8 SPLICE_N, 9 HEAD_SAFE, 10 REJECT_CLK, 11 REJECT_DAT,
12 SB_CLK, 13 SB_SEL_N, 14 SB_DO, 15 SB_DI, 16 RESET_N, and for each axis from 17 on STEP, DIR, EN, LIMIT_LO and LIMIT_HI. -/
def chainBalls : Nat := 37

/-- The balls of the chain that Riluz drives. -/
def ballDriven (b : Nat) : Bool := [6, 9, 10, 11, 12, 13, 14].contains b || (decide (17 ≤ b) && decide ((b - 17) % 5 < 3))

/-- R642: the level of an output ball between its pulses: none in OFF; before READY SB_SEL_N is high and every other one low; what EXTEST drives
while it is in force. In OFF the board holds STEP, EN and HEAD_SAFE low. -/
def State.ballLevel (s : State) (b : Nat) : Option Bool :=
  if s.power.st = pwOFF then none
  else match s.tap.driven with
    | some l => some (l.getD b false)
    | none =>
      if b = 13 then some true
      else if !s.power.ready then some false
      else if b = 9 then some s.headSafe
      else if 17 ≤ b then
        let x := s.axisOf ((b - 17) / 5)
        match (b - 17) % 5 with
        | 1 => some (x.dir != x.inv)
        | 2 => some (s.axisEn ((b - 17) / 5) != 0)
        | _ => some false
      else some false

/-- What the boundary-scan cells capture: an output's level as Riluz drives it, and an input's as it stands at the ball. -/
def State.chainCapture (s : State) (pins : List Bool) : List Bool :=
  (List.range chainBalls).map fun b => if ballDriven b then (s.ballLevel b).getD false else pins.getD b false

/-- The bits of a number as the TAP shifts them out, the lowest first. -/
def shiftBits (n v : Nat) : List Bool := (List.range n).map (bit v)

/-- BYPASS: a data register of one bit that captures 0 (IEEE 1149.1). -/
def State.jtagBypass (s : State) : State :=
  ({ s with tap := { s.tap with ir := 0, dr := 0, driven := none } } : State).emit (.tdo [false])

/-- A scan of the chain: what the cells capture is shifted out, and what is shifted in stands in their latches (IEEE 1149.1). -/
def State.chainScan (s : State) (pins load : List Bool) : State :=
  let c := s.chainCapture pins
  ({ s with tap := { s.tap with sampled := c, latch := (List.range chainBalls).map fun b => load.getD b false } } : State).emit (.tdo c)

/-- EXTEST drives the output balls from the latches (IEEE 1149.1). -/
def State.chainDrives (s : State) : State := { s with tap := { s.tap with ir := 3, driven := some s.tap.latch } }

/-- An instruction of the TAP with one scan of the data register that it selects (R649): EXTEST drives what was preloaded, captures, and then drives
what the scan has brought. A test instruction outside full test access acts as BYPASS. -/
def State.jtag (s : State) : JtagOp → State
  | .bypass => s.jtagBypass
  | .idcode => ({ s with tap := { s.tap with ir := 1, dr := 0x027416B5, driven := none } } : State).emit (.tdo (shiftBits 32 0x027416B5))
  | .samplePreload pins load =>
    ({ s with tap := { s.tap with ir := 2, driven := none } } : State).chainScan pins load
  | .extest pins load => (s.chainDrives.chainScan pins load).chainDrives
  | .blankToDevelop => if s.life.st = 0 ∧ s.life.target.isNone ∧ s.vault.wiping.isNone then s.lifeStart 1 else s
  | .otherTest _ => s.jtagBypass

/-- JTAG_INSTRUCTION (R649): what a further test instruction does under full test access the spec does not say. -/
def execJtagInstruction (op : JtagOp) (s : State) : Host.Outcome State Fault Refusal :=
  match op with
  | .otherTest _ => if s.testAccess && s.power.st != pwOFF then .refused .jtagUnspecified else .next (settle s (s.jtag op))
  | _ => .next (settle s (s.jtag op))

/-- TAP_RESET (R649): the IDCODE instruction is in force (IEEE 1149.1). -/
def execTapReset (s : State) : Host.Outcome State Fault Refusal := .next (settle s { s with tap := {} })

/-! ### Registers (R630 to R632) -/

/-- A write of a CHIP register, after the store of its bits. -/
def State.writeChip (s : State) (a v : Nat) : State := if a = CHIP.RESET && bit v 8 then s.chipReset v else s

/-- A write of a LIFE register, after the store of its bits. -/
def State.writeLife (s : State) (a v : Nat) : State :=
  if a = LIFE.REQ then (if bit v 8 then s.lifeReq (bits v 31 24) (bits v 2 0) else s)
  else if LIFE.CODE 0 ≤ a ∧ a < LIFE.CODE 4 then
    { s with life := { s.life with codes := s.life.codes.set ((a - LIFE.CODE 0) / 4) (BitVec.ofNat 32 v) } }
  else if a = LIFE.TAMPER_CFG then
    if s.life.st = 2 ∧ !bit v 31 then s else { s with life := { s.life with tamperEn := bit v 31 } }
  else if a = LIFE.TAMPER_CLEAR then (if bit v 8 then s.tamperClear else s)
  else s

/-- ID_BAD: the stored identity page fails its check (R629, R630). -/
def Life.idBad (l : Life) : Bool := crc32c (l.idPage.take 28) != fld l.idPage 28 4

/-- What a read of a derived CHIP register returns. -/
def State.readChip (s : State) (a : Nat) : Option Nat :=
  let id (o n : Nat) : Nat := fld s.life.idPage o n
  if a = STATUS pCHIP then some (s.reg a + (if s.power.ready then 16 else 0) + if s.life.idBad then 32 else 0)
  else if a = CHIP.RESET_CAUSE then some s.power.resetCause
  else if a = CHIP.CLK_STATUS then some s.power.clocks
  else if a = CHIP.ID_LOT_LO then some (id 0 4)
  else if a = CHIP.ID_LOT_HI then some (id 4 4)
  else if a = CHIP.ID_DIE then some (id 8 4)
  else if a = CHIP.ID_DATE then some (id 15 1 + id 14 1 * 256 + id 12 2 * 65536)
  else if a = CHIP.ID_UNIQUE_LO then some (id 16 4)
  else if a = CHIP.ID_UNIQUE_HI then some (id 20 4)
  else if a = CHIP.ID_CHECK then some (id 28 4)
  else if a = CHIP.IRQ_PEND 0 then some ((List.range 32).foldl (fun n i => if s.levelOf i then n + 2 ^ i else n) 0)
  else if a = CHIP.IRQ_PEND 1 then some ((List.range 28).foldl (fun n i => if s.levelOf (32 + i) then n + 2 ^ i else n) 0)
  else none

/-- What a read of a derived PWR register returns. -/
def State.readPwr (s : State) (a : Nat) : Option Nat := if a = PWR.STATE then some (s.power.lastWake * 256 + s.power.st) else none

/-- What a read of a derived LIFE register returns. -/
def State.readLife (s : State) (a : Nat) : Option Nat :=
  let b (v : Bool) (i : Nat) : Nat := if v then 2 ^ i else 0
  if a = STATUS pLIFE then some (s.reg a + if s.life.target.isSome then 16 else 0)
  else if a = LIFE.STATE then some s.life.st
  else if a = LIFE.WHY then some s.life.why
  else if a = LIFE.TAMPER_CFG then some (b s.life.tamperEn 31)
  else if a = LIFE.TAMPER_STATUS then some (b s.life.latch 31 + b s.life.mismatch 30 + b s.life.vbatLost 29)
  else none

end Sys2Proof.Machine
end

