-- ==== Sys2Proof/Machine/Replay.lean ====
section
/-! DEFINITION. Digests, and the replay: its pacer, what it feeds, its start and its end (R599 to R605, log 30). -/

namespace Sys2Proof.Machine

/-! ### Digests (R599, R604) -/

/-- Seals of the segments computed for line times `[u - n, u)`, by line time, row and strip. -/
def State.windowSeals (s : State) (u n : Nat) : List Nat :=
  ((s.led.seals.filter fun g => decide (u ≤ g.1 + n) && decide (g.1 < u)).reverse).map fun g => g.2.sealOf

/-- The recorded digest of a window of a replay: its CRC and its count. -/
def State.recordedDigest (s : State) (first n : Nat) : Option (Nat × Nat) :=
  (s.replayRecs.find? fun r => r.code == V.DIGEST && fld r.pay 0 6 == first && fld r.pay 6 2 == n).map fun r => (fld r.pay 8 4, fld r.pay 12 4)

/-- REPLAY_STATUS.RUNNING. -/
def State.replayRuns (s : State) : Bool := s.replaying && bit (s.reg LEDGER.REPLAY_STATUS) 30

/-- R604: a window whose digest differs from the recorded one. -/
def State.digestMismatch (s : State) (first recorded own : Nat) : State :=
  let s := if bit (s.reg LEDGER.REPLAY_STATUS) 29 then s
    else (s.setReg LEDGER.MISMATCH_LINE_LO (first % 2 ^ 32)).setReg LEDGER.MISMATCH_LINE_HI (first / 2 ^ 32)
  (((s.event pLEDGER V.DIGEST_MISMATCH [.lt first, .f 4 recorded, .f 4 own]).setBits LEDGER.REPLAY_STATUS (2 ^ 29)).bump
    LEDGER.DIGEST_MISMATCHES 1).raise pLEDGER 3

/-- R604: a window wholly within the line times whose frames the replay has computed is compared with its recorded digest. -/
def State.digestCompare (s : State) (first n crc count : Nat) : State :=
  if s.replayRuns && decide (s.active64 LEDGER.REPLAY_START_LO LEDGER.REPLAY_START_HI + 2 ≤ first) then
    match s.recordedDigest first n with
    | none => s
    | some d => if d = (crc, count) then s else s.digestMismatch first d.1 crc
  else s

/-- R599: the DIGEST record of the window that ends at this edge; a change of N takes effect at the next window. -/
def State.digest (s : State) : State :=
  let cfg := bits (s.reg LEDGER.DIGEST_CFG) 15 0
  let n := if s.led.digestN = 0 then cfg else s.led.digestN
  let s : State := { s with led := { s.led with digestN := n } }
  if n = 0 ∨ s.lineTime % n ≠ 0 ∨ s.lineTime < n then s
  else
    let seals := s.windowSeals s.lineTime n
    let crc := crc32c (seals.flatMap (leBytes 4))
    let s := s.event pLEDGER V.DIGEST [.lt (s.lineTime - n), .f 2 n, .f 4 crc, .f 4 seals.length]
    let s := s.digestCompare (s.lineTime - n) n crc seals.length
    { s with led := { s.led with digestN := cfg } }

/-- DIGEST (R599). -/
def execDigest (s : State) : Host.Outcome State Fault Refusal := .next (settle s s.digest)

/-! ### What the pacer feeds (R600, R602) -/

/-- A REG_WRITE record: the register takes its value at once (R582). -/
def State.fedReg (s : State) (r : RRec) : State :=
  let a := fld r.pay 0 1 * 0x1000 + fld r.pay 1 2
  let v := fld r.pay 3 4
  match regDef? a with
  | none => s
  | some (d, _) =>
    if !regWriteCovered a then s
    else
      let old := s.reg a
      let s := s.setReg a v
      let s := if d.grp ≠ 0 ∨ d.ev ≠ .none then s.activate s.lineTime (a, BitVec.ofNat 32 v)
        else if old = v then s else s.regWriteRec a v s.lineTime
      if a = CTRL pTILE then s.patrolSync else (s.splitCtrl a old false).writeSeal a

/-- A JOB_ABORTED record acts as the original abort did (R602). -/
def State.fedAbort (s : State) (n : Nat) (r : RRec) : State :=
  let st := fld r.pay 4 1
  if 3 ≤ st then
    let s := s.setEnd n (fld r.pay 5 6)
    s.event pMAIL V.JOB_ABORTED [.f 4 r.job, .f 1 st, .f 6 ((s.slotOf n).ends.getD 0), .lt s.lineTime]
  else (s.event pMAIL V.JOB_ABORTED [.f 4 r.job, .f 1 st, .lt s.lineTime]).releaseSlot n

/-- Columns of row `k` in `cols` whose entries a report that says `failed` changes (R214). -/
def State.healthHits (s : State) (k : Nat) (failed : Bool) (cols : List Nat) : List Nat :=
  cols.filter fun c => beamHealth (s.beamEntry k c) == (if failed then 0 else 1) && (failed || bit (s.reg SPLIT.HEALTH_CFG) 31)

/-- The columns that a HEALTH record and its closing record show as changed (R217): of the ways in which the report can have changed COUNT columns
from the first to the last, the one that its first message's own range, then its FAILED, explain (DESIGN CHOICE, log 30). -/
def State.fedColumns (s : State) (m : HealthMsg) (count a b : Nat) : List Nat :=
  let range := (List.range (b + 1 - a)).map (a + ·)
  let own := s.healthHits m.row m.failed (range.filter fun c => decide (m.first ≤ c) && decide (c < m.first + m.count))
  let same := s.healthHits m.row m.failed range
  let other := s.healthHits m.row (!m.failed) range
  let fits (l : List Nat) : Bool := l.length == count && l.contains a && l.contains b
  ([own, same, other, own ++ other, same ++ other].find? fits).getD ((own ++ same ++ other).dedup.take count)

/-- A HEALTH record stands for the changes of its row in one report (R217, R218). -/
def State.fedHealth (s : State) (r : RRec) : State :=
  let m : HealthMsg := { row := fld r.pay 0 1, failed := bit (fld r.pay 7 1) 0, first := fld r.pay 1 2, count := fld r.pay 3 4 }
  let rep : HealthReport := { number := 0, full := true, msgs := [m] }
  match closingOf s.replayRecs r with
  | none => s.takeReport rep
  | some c =>
    ((s.fedColumns m (fld c.pay 0 4) (fld c.pay 17 2) (fld c.pay 19 2)).foldl
      (fun h c => h.beam m.row c (beamHealth (s.beamEntry m.row c) == 0)) ({ st := s } : HealthTake)).finish rep

/-- A COUNTERSIGN record: the seal unit takes it (R269). One that was dropped, or was late, has that outcome again: what a record does not show
(a batch of another job, a hand-over cycle) decided it. -/
def State.fedSign (s : State) (r : RRec) : State :=
  let b := r.pay.take 12 ++ leBytes 2 s.deviceNo ++ (r.pay.drop 12).take 1 ++ leBytes 1 0
  let o := fld r.pay 13 1
  if o = 5 then (s.bump SEAL.CS_TAKEN 1).csDropped b s.lineTime 5
  else if o = 6 then (s.bump SEAL.CS_TAKEN 1).csLate b s.lineTime
  else s.countersign b 0 0 s.lineTime s.lineTime

/-- A VERDICT record that stands for a verdict of the peer is fed in place of the peer link (R248); the device's own are computed again. -/
def State.fedVerdict (s : State) (r : RRec) : State :=
  let side := fld r.pay 8 1 % 2
  let v := fld r.pay 9 1
  let idx := fld r.pay 4 4
  match s.slotOfJob r.job with
  | none => s
  | some n =>
    let set (f : ShareSide → ShareSide) : State :=
      (s.setCell n idx fun c => c.setSide side f).verdictUse r.job idx side (bits v 1 1) (bits v 0 0) true
    if !bit v 2 then s
    else if bit v 1 then (set fun q => { q with combV := some (bits v 0 0) }).compareCombined n idx side
    else set fun q => { q with localV := some (bits v 0 0) }

/-- A SAFE or RESTART record of a zone stands after a record. -/
def State.namedAfter (s : State) (r : RRec) (z : Nat) : Bool :=
  s.replayRecs.any fun q => decide (r.pos < q.pos) && (q.code == V.SAFE || q.code == V.RESTART) && fld q.pay 0 1 == z

/-- The zones that entered HOLD by a LOST or FROZEN record, which names their COUNT, the first and the last (R444): between those two, where not
all can be meant, zones that the records do not hold already, those that a later SAFE or RESTART record names first (DESIGN CHOICE, log 30). -/
def State.fedZones (s : State) (r : RRec) : List Nat :=
  let n := fld r.pay 0 4
  let a := fld r.pay 4 1
  let b := fld r.pay 5 1
  let mid := ((List.range (b - a - 1)).map (a + 1 + ·)).filter fun z => !s.replay.zones.contains z
  ([a, b] ++ ((mid.filter (s.namedAfter r)) ++ mid.filter fun z => !s.namedAfter r z).take (n - 2)).dedup

/-- One record that is fed at this edge (R600). Those of the line timeline, the weave, reloads, franks, memory faults, echoes and late postings are
looked up where they act, and those of tiles' and peers' verdicts once the line time has its cells and its line. -/
def State.fedRec (s : State) (r : RRec) : State :=
  let zones (f : List Nat → List Nat) : State := { s with replay := { s.replay with zones := f s.replay.zones } }
  if r.code = V.JOB_ABORTED then
    match s.slotOfJob r.job with
    | none => s
    | some n => s.fedAbort n r
  else if r.code = V.DAMAGE then
    match s.slotOfJob r.job with
    | none => s
    | some n => s.actDamage n (fld r.pay 6 6) (fld r.pay 4 2)
  else if r.code = V.TIMELINE_FAULT then s.voidCommitted
  else if r.code = V.TILE_MAP then s.tileMapped { slot := fld r.pay 0 1, phys := fld r.pay 1 1, lt := s.lineTime }
  else if r.code = E.LOST ∨ r.code = E.FROZEN then zones fun z => (z ++ s.fedZones r).dedup
  else if r.code = V.RESTART then zones fun z => z.filter (· != fld r.pay 0 1)
  else if r.code = V.SAFE then
    let z := fld r.pay 0 1
    { zones fun l => (l ++ [z]).dedup with loops := { s.loops with safeDue := s.loops.safeDue ++ [z] } }
  else if r.code = V.BEAM_WRITE then s.beamRange (fld r.pay 0 1) (fld r.pay 1 2) (fld r.pay 3 4) (fld r.pay 7 4) (fld r.pay 11 1)
  else if r.code = V.HEALTH then s.fedHealth r
  else if r.code = E.TELEMETRY_GAP then { s with jl := { s.jl with healthGap := true } }
  else s

/-- Every record that this edge feeds but its verdicts and countersigns, in SEQ order; FRANK_VOID records act on the cells that are live (R603).
An open health gap marks the segments of the line time (R345). -/
def State.feedAll (s : State) : State :=
  ((s.dueRecs.foldl State.fedRec s).gapMarks).fedFrankVoids fun n idx => ((s.slotOf n).liveCell idx).isSome

/-- The peers' verdicts and the countersigns of this line time, in SEQ order (R248, R269): they came in it, after its edge had assigned and
composed. -/
def State.feedSigns (s : State) : State :=
  s.dueRecs.foldl (fun s r => if r.code = V.VERDICT then s.fedVerdict r else if r.code = V.COUNTERSIGN then s.fedSign r else s) s

/-! ### Memory faults (R495, R518, R600) -/

/-- A recorded poisoned request of a requester at this edge. -/
def State.fedPoison (s : State) (q : Requester) : List RRec :=
  (s.recordedAt V.POISONED_REQ s.lineTime).filter fun r => fld r.pay 0 1 == (Config.requesterCode q.index).toNat

/-- The line that a poisoned request of composition names is the one composed at this edge. -/
def State.planIs (s : State) (r : RRec) : Bool := s.comp.plan.any fun p => p.rcd.job == fld r.pay 6 4 && p.rcd.line == fld r.pay 10 6

/-- Scratch addresses of the recorded uncorrectable reads of a master at this edge. -/
def State.fedUncorr (s : State) (m : Nat) : List Nat :=
  ((s.recordedAt E.ECC_UNCORRECTABLE s.lineTime).filter fun r => fld r.pay 0 1 == m).map fun r => fld r.pay 1 5

/-- Rows and words of the delay ring that these device addresses name for the frames of the coming line time. -/
def State.fedDelay (s : State) (as : List Nat) : List (Nat × Nat) :=
  (as.filter fun a => decide (s.delayRegion.1 ≤ a) && decide (a < s.delayRegion.1 + s.delayRegion.2)).flatMap fun a =>
    let o := a - s.delayRegion.1
    ((List.range s.rows).filter fun k => (s.lineTime + 1 - k * s.spacing) % 256 == o / max 1 s.columns).map fun k => (k, o % max 1 s.columns / 8)

/-- Rows and columns of the beam table that these device addresses name. -/
def State.fedBeams (s : State) (as : List Nat) : List (Nat × Nat) :=
  (as.filter fun a => decide (s.beamRegion.1 ≤ a) && decide (a < s.beamRegion.1 + s.beamRegion.2)).map fun a =>
    ((a - s.beamRegion.1) / 4 / 65536, (a - s.beamRegion.1) / 4 % 65536)

/-- What the memories do in a replayed line time: the faults are the recorded ones (R600), the rest is live. -/
def State.fedEnv (s : State) (env : LineEnv) : LineEnv :=
  let comp := s.fedPoison .composition
  let addr (r : RRec) : Nat := fld r.pay 1 5
  let split := s.fedUncorr mSPLIT
  { env with
    composePoison := (comp.filter fun r => !s.planIs r).map addr
    leadWritePoison := (comp.filter s.planIs).map addr
    leadReadPoison := (s.fedPoison .splitter).map fun r => (addr r - s.leadAddr (s.lineTime + 1)) / 256
    glyphUncorr := (s.fedUncorr mFRANK).map fun a => a - scratchBase
    delayUncorr := s.fedDelay split
    beamUncorr := s.fedBeams split
    unsent := some [] }

/-- Live memory faults of the line time are written and do not act (R602). -/
def State.suppressEnv (s : State) (env : LineEnv) : State :=
  let planned : List Fld := match s.comp.plan with
    | none => []
    | some p => [.f 4 p.rcd.job, .f 6 p.rcd.line]
  let req (q : Requester) (write : Bool) (s : State) (a : Nat) : State := (s.poisoned q a write planned).suppress
  let s := env.composePoison.foldl (req .composition false) s
  let s := env.leadWritePoison.foldl (req .composition true) s
  let s := (env.leadReadPoison.map fun u => s.leadAddr (s.lineTime + 1) + 256 * u).foldl (req .splitter false) s
  let ecc (m : Nat) (s : State) (a : Nat) : State := (s.eccRecord m a).suppress
  let s := env.glyphUncorr.foldl (ecc mFRANK) s
  let s := (env.delayUncorr.map fun w => s.delayAddr (s.lineTime + 1 - w.1 * s.spacing) + 8 * w.2 - scratchBase).foldl (ecc mSPLIT) s
  (env.beamUncorr.map fun b => s.beamAddr b.1 b.2 - scratchBase).foldl (ecc mSPLIT) s

/-! ### The edge of a replay line time (R602, R603) -/

/-- Segments of the last line time whose strip has FRAME_LOST recorded are Lost. -/
def State.fedLost (s : State) : State :=
  { s with segs := s.segs.map fun g => if g.lt + 1 = s.lineTime ∧ s.recordedLost g.data.strip then { g with lost := true } else g }

/-- A job whose JOB_STARTED is recorded at this edge, while composition makes idle lines (R74, R600). -/
def State.fedStart (s : State) : State :=
  match s.recordedStart s.lineTime with
  | none => s
  | some n =>
    let x := s.slotOf n
    if s.comp.on.isNone && x.st == .staged && x.take.isNone then ((s.takeJob n s.lineTime).discardIdle (s.lineTime + x.lead)).promote else s

/-- The job slots at a hand-over edge of a replay. -/
def State.replayJobs (s : State) : State := (List.range 4).foldl State.advance (s.checkPlan.promote.slotCmds.fedStart.replan)

/-- The registers of REG_WRITE records take their values before anything else of the edge (R582). -/
def State.fedRegs (s : State) : State := (s.dueOf V.REG_WRITE).foldl State.fedReg s

/-- The hand-over edge of a replay line time, and the line time. No segment, fire marker or DRIVE codeword is sent (R602). -/
def State.replayEdge (s : State) (env : LineEnv) : State :=
  let s := s.edgeBegins.webRuns.trigOut.closeLineTallies.fedRegs.fedLost.settleLost
  let s := s.handOverLine
  let s := s.feedAll.replayJobs
  let s := ((s.lineWork (s.fedEnv env)).suppressEnv env).feedSigns
  let s : State := { s with replay := { s.replay with seen := s.reg LEDGER.REPLAY_FILL } }
  (s.paceRequest 0).headSync

/-- A record of the buffer that the pacer has passed at line time `t`: CONT and closing records go with the record before them. -/
def rawPassed (t : Nat) (p : Nat × List Byte) : Bool :=
  fld p.2 10 2 == V.CONT || bit (fld p.2 10 2) 15 || decide ((t + 2 ^ 32 - fld p.2 12 4) % 2 ^ 32 < 2 ^ 31)

/-- REPLAY_POS after the records of this line time. -/
def State.advancePos (s : State) : State :=
  let first := s.reg LEDGER.REPLAY_FILL - s.replayCap
  let pos := max first (s.reg LEDGER.REPLAY_POS)
  s.setReg LEDGER.REPLAY_POS (pos + ((s.replayRaw.drop (pos - first)).takeWhile (rawPassed (s.lineTime % 2 ^ 32))).length)

/-- A job whose JOB_STARTED is recorded at line time `t` is not STAGED in a slot. -/
def State.startMissing (s : State) (t : Nat) : Bool :=
  (s.recordedAt V.JOB_STARTED t).any fun r => !(s.slots.any fun x => x.job == r.job && (x.st == .staged || x.take.isSome))

/-- Line `l` of slot `n`, composed in line time `t`, is supplied (R66) or recorded as starved. -/
def State.lineReady (s : State) (n l t : Nat) : Bool :=
  decide (l < (s.slotOf n).supply) || (s.recordedCause (s.slotOf n).job t).1 != 0

/-- A line that the coming line event composes or plans is neither supplied nor recorded as starved (R603). -/
def State.lineMissing (s : State) : Bool :=
  let t := s.lineTime + 1
  let startAt (u : Nat) : Bool := match s.recordedStart u with
    | none => false
    | some n => !s.lineReady n 0 u || (u == t && decide (1 < ((s.slotOf n).ends.getD 2)) && !s.lineReady n 1 (u + 1))
  s.startMissing t || s.startMissing (t + 1) ||
  match s.comp.on with
  | none => startAt t
  | some n =>
    let x := s.slotOf n
    if (x.ends.map fun e => decide (e ≤ x.planned)) = some true then startAt (t + 1) else !s.lineReady n x.planned (t + 1)

/-- The pacer holds the next line event (R603). -/
def State.pacerHolds (s : State) : Bool :=
  !s.replayRuns || decide (s.reg LEDGER.REPLAY_FILL ≤ s.reg LEDGER.REPLAY_POS) || s.lineMissing

/-- The pacer makes a line event. -/
def State.replayPacer (s : State) (env : LineEnv) : State := if s.pacerHolds then s else (s.countLine.replayEdge env).advancePos

/-- REPLAY_PACER (R603). -/
def execReplayPacer (env : LineEnv) (s : State) : Host.Outcome State Fault Refusal := .next (settle s (s.replayPacer env))

/-! ### Start and end (R602 to R605) -/

/-- Every job slot is EMPTY (R605). -/
def State.slotsEmpty (s : State) : Bool := s.slots.all fun x => x.st == .empty

/-- A replay starts: its line time is REPLAY_START, and nothing of the lines before it is kept. -/
def State.replayBegin (s : State) : State :=
  let u := s.active64 LEDGER.REPLAY_START_LO LEDGER.REPLAY_START_HI % 2 ^ 48
  let s := s.setBits LEDGER.REPLAY_CTRL (2 ^ 31)
  let s := ((s.setReg LEDGER.REPLAY_STATUS (2 ^ 30)).setReg LEDGER.REPLAY_POS 0).setReg LEDGER.MISMATCH_LINE_LO 0 |>.setReg LEDGER.MISMATCH_LINE_HI 0
  let s : State := { s with
    lineTime := u, segs := [], replay := {}
    comp := { s.comp with recs := [], plan := none }
    place := { s.place with hist := [] }
    split := { s.split with enSince := none, log := [], absent := [] }
    jl := { s.jl with healthGap := false, reports := [] }
    led := { s.led with digestN := 0, seals := [] } }
  (s.event pLEDGER V.REPLAY_START []).powerSync

/-- EN is refused, and stays 0, unless every job slot is EMPTY (R605). -/
def State.replayStart (s : State) : State :=
  if s.replayRuns then s
  else if s.slotsEmpty then s.replayBegin
  else s.setReg LEDGER.REPLAY_CTRL (putBit (s.reg LEDGER.REPLAY_CTRL) 31 false)

/-- REPLAY_START (R602, R605). -/
def execReplayStart (s : State) : Host.Outcome State Fault Refusal := .next (settle s (s.wakeEvent wakeREGISTER).replayStart)

/-- REPLAY_END is written and DONE sets (R604). -/
def State.replayDone (s : State) : State :=
  (s.setReg LEDGER.REPLAY_STATUS (putBit (s.reg LEDGER.REPLAY_STATUS) 30 false ||| 2 ^ 31)).event pLEDGER V.REPLAY_END []

/-- REPLAY_END: the records of the buffer are exhausted. -/
def State.replayEnd (s : State) : State :=
  if s.replayRuns && decide (s.reg LEDGER.REPLAY_FILL ≤ s.reg LEDGER.REPLAY_POS) then s.replayDone else s

/-- REPLAY_END (R604). -/
def execReplayEnd (s : State) : Host.Outcome State Fault Refusal := .next (settle s s.replayEnd)

/-- A write of REPLAY_CTRL (R604, R605); `old` is the value before. -/
def State.replayCtrl (s : State) (old : Nat) : State :=
  if s.replaying then (if bit (s.reg LEDGER.REPLAY_STATUS) 30 then s else s.replayStart)
  else if bit old 31 && bit (s.reg LEDGER.REPLAY_STATUS) 30 then s.replayDone.powerSync
  else s.powerSync

end Sys2Proof.Machine
end

