-- ==== Sys2Proof/Machine/Scrub.lean ====
section
/-! DEFINITION. The album scrub (R119, R120, R573). -/

namespace Sys2Proof.Machine

/-- READY stamps of all slots, by slot and number (R120). -/
def State.readyStamps (s : State) : List (Nat × Nat) :=
  (List.range 4).flatMap fun n => sortBy Prod.snd (((s.slotOf n).stamps.filter (·.st == 2)).map fun t => (n, t.num))

/-- SCRUB_POS of a slot and stamp (R153). -/
def scrubPos (p : Nat × Nat) : Nat := p.1 * 65536 + p.2

/-- The stamp whose turn it is: the next one after SCRUB_POS (R120). Where the scrub begins and how it goes round the READY stamps is Riluz's own
choice: by slot and then by number from the one after SCRUB_POS, so that after reset stamp 0 of slot 0 is the last one (DESIGN CHOICE, log 77). -/
def State.nextStamp (s : State) : Option (Nat × Nat) :=
  let l := s.readyStamps
  match l.find? fun p => decide (s.reg ALBUM.SCRUB_POS < scrubPos p) with
  | some p => some p
  | none => l.head?

/-- Device memory that a stamp lies in (R116). -/
def State.stampRegions (s : State) (t : Stamp) : List (Nat × Nat) := s.frameRegions t.frames (t.h * pitch t.w)

/-- The scrub of a stamp of slot `n` on unit `u`. -/
def State.scrubOf (s : State) (u n : Nat) (t : Stamp) : ScrubRun :=
  { unit := u, slot := n, job := (s.slotOf n).job, num := t.num, frames := s.stampRegions t, check := t.check }

/-- ALBUM_SCRUB_START: the scrub begins its next stamp on the unit that SCRUB.UNIT names, once the unit is free (R120, R573). -/
def State.scrubStart (s : State) : State :=
  let u := bits (s.reg ALBUM.SCRUB) 19 16
  if bit (s.reg ALBUM.SCRUB) 31 && s.enabled pCHK && s.chk.scrub.isNone && decide (u ≤ 8) && !s.chkBusy u &&
    !s.chkFailed u && !s.unitUnavailable u then
    match s.nextStamp.bind fun p => ((s.slotOf p.1).stampOf p.2).map fun t => (p.1, t) with
    | none => s
    | some (n, t) => { s with chk := { s.chk with scrub := some (s.scrubOf u n t), album := some u } }
  else s

/-- ALBUM_SCRUB_START (R120). -/
def execAlbumScrubStart (s : State) : Host.Outcome State Fault Refusal := .next (settle s s.scrubStart)

/-- One scan for each frame, chained (R120): the running value goes on from frame to frame, each scan ends as any other does (R570), and the last one
is compared with the kept value (R569). A frame whose read fails ends the scrub without a compare (R567). What the compare found. -/
def State.scrubScans (s : State) (x : ScrubRun) (run : Nat) (fs : List MemFault) : List (Nat × Nat) → Option Bool × State
  | [] => (none, s)
  | f :: rest =>
    let (bad, s) := s.scanReads f.1 f.2 fs
    match bad with
    | some a => (none, s.scanMemError x.unit f.1 f.2 a)
    | none =>
      let run := (s.readMem f.1 f.2).foldl (crcFold (crcPreset 1)) run
      let value := crcResult (crcPreset 1) run
      if rest.isEmpty then
        let same := value == x.check
        let s := s.setReg (CHK.STAT x.unit) (putBit (s.reg (CHK.STAT x.unit)) 27 same)
        (some same, s.scanEnd x.unit run value f.2 (if same then 0 else 2))
      else (s.scanEnd x.unit run value f.2 0).scrubScans x run fs rest

/-- The stamp that a scrub reads, while its job holds the slot. -/
def State.scrubStamp (s : State) (x : ScrubRun) : Option Stamp :=
  if (s.slotOf x.slot).job = x.job then (s.slotOf x.slot).stampOf x.num else none

/-- R120, R131: a mismatch marks the stamp BAD and lowers the damage line of its job. -/
def State.scrubFail (s : State) (n : Nat) (t : Stamp) : State :=
  let s := s.setSlot n fun x => { x with stamps := x.stamps.map fun q => if q.num == t.num then { q with st := 3 } else q }
  let x := s.slotOf n
  let s := ((s.error pALBUM E.ALBUM_SCRUB_FAIL [.f 4 x.job, .f 2 t.num]).bump ALBUM.SCRUB_FAILS 1).raise pALBUM 4
  s.lowerDamage n x.composed E.ALBUM_SCRUB_FAIL

/-- The outcome of a scrub's compare; a stamp that its job has taken along has none (R119, R120). -/
def State.scrubFound (s : State) (x : ScrubRun) : Option Bool → State
  | none => s
  | some true => s.bump ALBUM.SCRUBS 1
  | some false =>
    match s.scrubStamp x with
    | none => s
    | some t => s.scrubFail x.slot t

/-- ALBUM_SCRUB_DONE: the scrub of a stamp ends, once the album serves requests (R120, R500, R505, R567, R573). -/
def State.scrubDone (s : State) (mem : MemRep) : State :=
  match s.chk.scrub with
  | none => s
  | some x =>
    if s.served x.frames then
      let s : State := { s with chk := { s.chk with scrub := none } }
      let s := ((s.setReg ALBUM.SCRUB_POS (scrubPos (x.slot, x.num))).touch x.frames).memReport .checkUnit mCHK mem
      let (found, s) := s.scrubScans x (crcStart (crcPreset 1)) mem.faults x.frames
      s.scrubFound x found
    else s

/-- ALBUM_SCRUB_DONE (R120). -/
def execAlbumScrubDone (mem : MemRep) (s : State) : Host.Outcome State Fault Refusal := .next (settle s (s.scrubDone mem))

end Sys2Proof.Machine
end

