-- ==== Sys2Proof/Machine/HostRegs.lean ====
section
/-! DEFINITION. Host accesses to BAR0: what a write of each register does, what a read of each register returns, interrupt causes and
holdoffs (R22 to R41). -/

namespace Sys2Proof.Machine

/-! ### Interrupts (R41) -/

/-- A W1C write to IRQ_RAW: the message is sent again where it clears a bit and leaves the source at level 1. -/
def State.irqClear (s : State) (p v : Nat) : State :=
  let raw := s.reg (IRQ_RAW p)
  let s := s.setReg (IRQ_RAW p) (raw &&& (0xFFFFFFFF - v % 2 ^ 32))
  if raw &&& v != 0 && s.levelOf p then s.notify p else s

/-- IRQ_RAW_CLEAR (R41). -/
def execIrqRawClear (src : Fin 60) (value : Word) (s : State) : Host.Outcome State Fault Refusal :=
  .next (settle s ((s.wakes wakeREGISTER).irqClear src value.toNat))

/-- The holdoff of a source ends: a message held back is sent if the source is still at level 1. -/
def State.holdoffEnds (s : State) (p : Nat) : State :=
  match keyGet s.irq.holdoff p with
  | none => s
  | some held =>
    let s : State := { s with irq := { s.irq with holdoff := keyErase s.irq.holdoff p } }
    if held && s.levelOf p then s.notify p else s

/-- HOLDOFF_EXPIRY (R41). -/
def execHoldoffExpiry (src : Fin 60) (s : State) : Host.Outcome State Fault Refusal := .next (settle s (s.holdoffEnds src))

/-! ### What a write starts -/

/-- A write of a CMP register, after the store of its bits. -/
def State.writeCmp (s : State) (a v : Nat) : State :=
  if a = CMP.START 0 then (if bit v 8 then s.cmpStart 0 else s)
  else if a = CMP.START 1 then (if bit v 8 then s.cmpStart 1 else s)
  else s

/-- A write of a WEB register. -/
def State.writeWeb (s : State) (a old v : Nat) : State :=
  if a = CTRL pWEB then
    let s := s.webEnabled old
    if bit v 1 then s.webClear else s
  else s

/-- A write of an AXIS register. The inputs of LIMIT_CLEAR have been inactive long enough where their held level is low (R472). -/
def State.writeAxis (s : State) (a old v : Nat) : State :=
  if a = CTRL pAXIS then s.headSync
  else if AXIS.CFG 0 ≤ a ∧ a < AXIS.CFG 4 ∧ (a - AXIS.CFG 0) % 0x40 = 0 then
    (s.cfgWritten ((a - AXIS.CFG 0) / 0x40) old).dirFollows ((a - AXIS.CFG 0) / 0x40)
  else if AXIS.CFG 0 ≤ a ∧ a < AXIS.CFG 4 ∧ bit v 8 then
    let i := (a - AXIS.CFG 0) / 0x40
    if a = AXIS.STOP i then s.axisStop i
    else if a = AXIS.LIMIT_CLEAR i then s.clearLatches i (bit v 1) (bit v 0)
    else s
  else s

/-- A write of a LEDGER register. -/
def State.writeLedger (s : State) (a old : Nat) : State :=
  if a = CTRL pLEDGER then (if s.enabled pLEDGER then s.flushHeld else s)
  else if a = LEDGER.REPLAY_CTRL then s.replayCtrl old
  else s

/-- What the write `v` of a register of page `p` does beyond the store of its bits; `old` is the value before. -/
def State.writeActs (s : State) (p a old v : Nat) (late : Bool) : State :=
  match p with
  | 0 => s.writeChip a v
  | 2 => s.writeLife a v
  | 4 => s.writeDma a v
  | 5 => s.writeScr a v
  | 6 => s.writeVault a v
  | 7 => s.writeHbm a v
  | 8 => if a = MAIL.LETTER_RINGS then s.lettersRebound old (s.reg a) else s.writeMail a v late
  | 10 => s.writeCmp a v
  | 12 => if a = CTRL pTILE then s.patrolSync else s
  | 14 => s.splitCtrl a old late
  | 16 => s.writeSeal a
  | 17 => s.writeWeb a old v
  | 18 => if a = CTRL pJLINK then s.jlinkEnabled old else s
  | 19 => s.writeLane a v
  | 20 => if a = CTRL pPEER ∧ !s.enabled pPEER then s.peersDisabled else s
  | 21 => s.writeTime a v
  | 23 => if a = CTRL pLOOP then s.loopCtrl old else if a = LOOP.ZONE_CMD then s.zoneCmd v late else s
  | 24 => s.writeAxis a old v
  | 25 => if a = CTRL pSAMPLE then s.sampleCtrl else s
  | 26 => s.writeChk a old v
  | 27 => s.writeLedger a old
  | p => if 28 ≤ p then s.writeRing (p - 28) a v else s

/-! ### Writes (R23 to R27, R36) -/

/-- The bits that a write of `v` leaves in a register (R9, R27). -/
def RegDef.stored (d : RegDef) (old v : Nat) : Nat :=
  match d.acc with
  | .rw => (old &&& (0xFFFFFFFF - d.mask)) ||| (v &&& d.mask)
  | .w1c => old &&& (0xFFFFFFFF - (v &&& d.mask))
  | .ro | .wo | .rc => old

/-- R582: the effective line time of an immediate change: the coming one; 1 where WEB.CTRL.EN becomes 1, which starts LINE_TIME from 0 (R287);
the one after the coming one for a late write of SPLIT.CTRL (R36, R661). -/
def State.changeLine (s : State) (a old : Nat) (late : Bool) : Nat :=
  if a = CTRL pWEB ∧ s.enabled pWEB ∧ !bit old 0 then 1
  else if a = CTRL pSPLIT ∧ late then (s.lineTime + 2) % 2 ^ 48
  else s.nextLine

/-- R582: an immediate change of a register that REG_WRITE covers. -/
def State.noteChange (s : State) (a old : Nat) (late : Bool) : State :=
  if s.reg a = old then s else s.regWriteRec a (s.reg a) (s.changeLine a old late)

/-- R27, R34, R36: the store of a register that is neither COMMIT nor IRQ_RAW. -/
def State.storeWord (s : State) (a v : Nat) (late : Bool) (d : RegDef) : State :=
  let old := s.reg a
  let s := s.setReg a (d.stored old v)
  if d.grp ≠ 0 then s
  else if d.ev ≠ .none then (if late then s.lateShadow a old else s)
  else s.noteChange a old late

/-- R25: an access outside every page. -/
def State.unmappedAccess (s : State) : State := s.error pCHIP E.UNMAPPED []

/-- A write of the 32-bit word at BAR0 byte offset `a`, a multiple of 4. A reserved offset takes no write (R9). -/
def State.writeWord (s : State) (a v : Nat) (late : Bool) : State :=
  match pageOf a with
  | none => s.unmappedAccess
  | some p =>
    match regDef? a with
    | none => s
    | some (d, _) =>
      if a = COMMIT p then s.commitWrite p (v % 256) late
      else if a = IRQ_RAW p then s.irqClear p (v &&& d.mask)
      else if s.replaying && regWriteCovered a then s
      else if s.bankLocked a then s.bump LOOP.BANK_WRITES_DROPPED 1
      else (s.storeWord a v late d).writeActs p a (s.reg a) v late

/-- The words that a write covers: byte offset of each, with its four bytes; none for a word that it covers only in part (R24). -/
def writeWords (a : Nat) (data : List (Option Byte)) : List (Nat × Option (Option Nat)) :=
  let first := a / 4
  let last := (a + data.length + 3) / 4
  (List.range (last - first)).map fun i =>
    let w := 4 * (first + i)
    let bs : List (Option Byte) := (List.range 4).map fun k => if w + k < a then none else (data.getD (w + k - a) none)
    (w, if bs.all (·.isNone) then some none
        else if bs.all (·.isSome) then some (some (leNat (bs.map fun b => b.getD 0)))
        else none)

/-- R24: a misaligned write changes nothing and is recorded on the page addressed. -/
def State.badWrite (s : State) (a : Nat) : State :=
  match pageOf a with
  | none => s.unmappedAccess
  | some p => s.error p E.BAD_ACCESS []

/-- A host write to BAR0: bytes from offset `a` on, each with its enable (R23 to R26). One of more than 64 bits acts as so many 32-bit writes,
and one with no byte enabled does nothing (DESIGN CHOICE, log 15). -/
def State.hostWrite (s : State) (a : Nat) (data : List (Option Byte)) (late : Bool) : State :=
  let ws := writeWords a data
  if ws.any fun w => w.2.isNone then s.badWrite a
  else ws.foldl (fun s w => match w.2 with
    | some (some v) => (s.writeWord w.1 v late).followLevels
    | _ => s) s

/-- REGISTER_WRITE (R26). -/
def execRegisterWrite (addr : BitVec 24) (data : List (Option Byte)) (late : Bool) (s : State) : Host.Outcome State Fault Refusal :=
  .next (settle s ((s.wakes wakeREGISTER).hostWrite addr.toNat data late))

/-! ### Reads (R24 to R28) -/

/-- The block of page `p` has work in progress (R28). -/
def State.busy (s : State) (p : Nat) : Bool :=
  match p with
  | 2 => s.life.target.isSome
  | 4 => s.dma.ring.any fun r => !r.taken.isEmpty
  | 5 => s.scr.retiring.isSome || s.scr.clearing
  | 6 => s.vault.wiping.isSome
  | 7 => s.hbm.sweep.isSome || s.hbm.repair.isSome || s.hbm.rateBusy
  | 8 => s.slots.any (·.occupied)
  | 9 => s.mail.decs.any (·.isSome)
  | 10 => s.cmp.any fun u => u.run.isSome || u.waits
  | 11 => s.chk.scrub.isSome
  | 12 | 13 => s.comp.on.isSome
  | 14 | 15 => s.jobsActive
  | 16 => !s.segs.isEmpty || s.slots.any fun x => x.cells.any (·.live)
  | 19 => s.lanes.lane.any fun l => l.tstate != 0 && l.tstate != 6 && l.tstate != 7
  | 24 => s.axes.any fun x => x.st != 0
  | 26 => s.chk.unit.any fun u => u.scan.isSome || u.testing
  | 27 => s.led.queues.any fun q => !q.2.isEmpty
  | p => decide (28 ≤ p) && !(s.ringOf (p - 28)).taken.isEmpty

/-- A committed group of page `p` waits for its hand-over (R28). -/
def State.pendingOf (s : State) (p : Nat) : Bool := s.pend.any (·.page == p) || (p == pLOOP && s.loops.pendingSwap)

/-- PENDING, ERR and BUSY of STATUS (R28). -/
def State.commonStatus (s : State) (p : Nat) : Nat :=
  (if s.pendingOf p then 8 else 0) + (if bits (s.reg (ERR_CODE p)) 15 0 = 0 then 0 else 4) + if s.busy p then 1 else 0

/-- What a read of a derived LEDGER register returns. -/
def State.readLedger (s : State) (a : Nat) : Option Nat :=
  if a = LEDGER.WRITE_SEQ then some s.led.seq
  else if a = LEDGER.EXPORT_SEQ then some s.exportSeq
  else if a = LEDGER.RING_USED then some s.led.waiting.length
  else if a = STATUS pLEDGER then some (s.reg a + (if s.led.overrun then 16 else 0) + if bit (s.reg LEDGER.REPLAY_CTRL) 31 then 32 else 0)
  else none

/-- What a read of a register of page `p` returns where the register shows block state. -/
def State.readBlock (s : State) (p a : Nat) : Option Nat :=
  match p with
  | 0 => s.readChip a
  | 1 => s.readPwr a
  | 2 => s.readLife a
  | 3 => if a = HOST.LINK then some s.host.link else none
  | 4 => s.readDma a
  | 5 => s.readScr a
  | 6 => s.readVault a
  | 7 => if a = HBM.MAILBAG_FREE then some (s.mailFree / 2 ^ 20) else s.readHbm a
  | 8 => s.readMail a
  | 9 => s.readDec a
  | 10 => s.readCmp a
  | 11 => s.readAlbum a
  | 12 => s.readTile a
  | 13 => s.readFrank a
  | 14 => s.readSplit a
  | 15 => s.readPlace a
  | 16 => s.readSeal a
  | 17 => s.readWeb a
  | 18 => s.readJlink a
  | 19 => s.readLane a
  | 20 => s.readPeer a
  | 21 => s.readTime a
  | 22 => s.readEth a
  | 23 => s.readLoop a
  | 24 => s.readAxis a
  | 26 => s.readChk a
  | 27 => s.readLedger a
  | p => if 28 ≤ p then s.readRing (p - 28) a else none

/-- What a read of the register at BAR0 byte offset `a`, a multiple of 4, returns: 0 outside every page, at a reserved offset and for a
write-only register (R9, R25, R27). -/
def State.readWord (s : State) (a : Nat) : Nat :=
  match pageOf a, regDef? a with
  | some p, some (d, _) =>
    let v := (s.readBlock p a).getD (s.reg a)
    if d.acc = .wo then 0
    else if a = STATUS p then v + s.commonStatus p
    else if a = IRQ_STAT p then s.reg (IRQ_RAW p) &&& s.reg (IRQ_MASK p)
    else if a = COMMIT p then v + if s.pendingOf p then 512 else 0
    else v
  | _, _ => 0

/-- What a read of the register at `a` does to it: an RC register takes its reset value (R27), or, where it holds the most of something since the
last read, what is held now (R154, R219); TXTS_TAG is popped (R430), the vault window
answers (R528), and the free values that the read may have used are used up (log 3). -/
def State.readActs (s : State) (a : Nat) : State :=
  let s : State := { s with free := s.free + 1 }
  match pageOf a, regDef? a with
  | none, _ => s.unmappedAccess
  | some _, none => s
  | some _, some (d, _) =>
    if a = TILE.POSTINGS_PEAK then s.setReg a s.inFlight
    else if a = SPLIT.LOG_PEAK then s.setReg a s.split.log.length
    else if a = ETH.TXTS_TAG then s.txtsPop
    else if d.acc = .rc then s.setReg a (resetOf a).toNat
    else if a = VAULT.WIN_DATA then s.vaultAccess none false
    else s

/-- The registers that the enabled bytes of an access fall in, lowest first (R24). A read with no byte enabled, in a page or outside every page,
so returns nothing and records nothing (DESIGN CHOICE, log 15). -/
def readWords (a : Nat) (enables : List Bool) : List Nat :=
  let first := a / 4
  let last := (a + enables.length + 3) / 4
  ((List.range (last - first)).map fun i => 4 * (first + i)).filter fun w =>
    (List.range 4).any fun k => decide (a ≤ w + k) && enables.getD (w + k - a) false

/-- A read of one register: its value joins the data that the host receives. -/
def State.readOne (s : State) (a : Nat) : State :=
  let v := s.readWord a
  let before := s.host.data
  let s := s.readActs a
  let v := if a = VAULT.WIN_DATA then leNat s.host.data else v
  s.hostData (before ++ leBytes 4 v) false

/-- A host read of BAR0 (R24 to R27). -/
def State.hostRead (s : State) (a : Nat) (enables : List Bool) : State :=
  (readWords a enables).foldl State.readOne (s.hostData [] false)

/-- READ_CLEAR (R27). -/
def execReadClear (addr : BitVec 24) (enables : List Bool) (s : State) : Host.Outcome State Fault Refusal :=
  .next (settle s ((s.wakes wakeREGISTER).hostRead addr.toNat enables))

/-- UNMAPPED: an access outside every page (R25); a read of it returns 0. An address inside a page is no such access. -/
def State.unmapped (s : State) (write : Bool) (a : Nat) : State :=
  if (pageOf a).isSome then s
  else if write then s.unmappedAccess else s.unmappedAccess.hostData (leBytes 4 0) false

/-- UNMAPPED (R25). -/
def execUnmapped (write : Bool) (addr : BitVec 24) (s : State) : Host.Outcome State Fault Refusal :=
  .next (settle s ((s.wakes wakeREGISTER).unmapped write addr.toNat))

end Sys2Proof.Machine
end

