-- ==== Sys2Proof/Machine/Dispatch.lean ====
section
/-! DEFINITION. One arm for each command. -/

namespace Sys2Proof.Machine

def exec (i : Instr) (s : State) : Host.Outcome State Fault Refusal :=
  match i with
  | .registerWrite addr data late => Sys2Proof.Machine.execRegisterWrite addr data late s
  | .unmapped write addr => Sys2Proof.Machine.execUnmapped write addr s
  | .readClear addr enables => Sys2Proof.Machine.execReadClear addr enables s
  | .irqRawClear src value => Sys2Proof.Machine.execIrqRawClear src value s
  | .holdoffExpiry src => Sys2Proof.Machine.execHoldoffExpiry src s
  | .commitGroup src group late => Sys2Proof.Machine.execCommitGroup src group late s
  | .lineEvent env => Sys2Proof.Machine.execLineEvent env s
  | .letterArrival src mem => Sys2Proof.Machine.execLetterArrival src mem s
  | .mailResume => Sys2Proof.Machine.execMailResume s
  | .decoderTake dec => Sys2Proof.Machine.execDecoderTake dec s
  | .decodeDone dec mem => Sys2Proof.Machine.execDecodeDone dec mem s
  | .directBufferRoom dec => Sys2Proof.Machine.execDirectBufferRoom dec s
  | .jobOpen dec mem => Sys2Proof.Machine.execJobOpen dec mem s
  | .stamp dec => Sys2Proof.Machine.execStamp dec s
  | .postingTable dec mem => Sys2Proof.Machine.execPostingTable dec mem s
  | .direct dec => Sys2Proof.Machine.execDirect dec s
  | .enclosure dec => Sys2Proof.Machine.execEnclosure dec s
  | .frankDef dec mem => Sys2Proof.Machine.execFrankDef dec mem s
  | .glyphSet dec => Sys2Proof.Machine.execGlyphSet dec s
  | .jobClose dec mem => Sys2Proof.Machine.execJobClose dec mem s
  | .fence dec mem => Sys2Proof.Machine.execFence dec mem s
  | .countersignBatch dec late mem => Sys2Proof.Machine.execCountersignBatch dec late mem s
  | .mailGo slot late => Sys2Proof.Machine.execMailGo slot late s
  | .mailAbort slot late => Sys2Proof.Machine.execMailAbort slot late s
  | .decisionEdge => Sys2Proof.Machine.execDecisionEdge s
  | .overlapCombine => Sys2Proof.Machine.execOverlapCombine s
  | .overlapDeadline => Sys2Proof.Machine.execOverlapDeadline s
  | .echoSettle => Sys2Proof.Machine.execEchoSettle s
  | .verdict => Sys2Proof.Machine.execVerdict s
  | .rejectRecordDone => Sys2Proof.Machine.execRejectRecordDone s
  | .keepalive => Sys2Proof.Machine.execKeepalive s
  | .countersignTake late => Sys2Proof.Machine.execCountersignTake late s
  | .encoderEdge a b => Sys2Proof.Machine.execEncoderEdge a b s
  | .encIndex => Sys2Proof.Machine.execEncIndex s
  | .loopSample => Sys2Proof.Machine.execLoopSample s
  | .triggerEdge rising gapNs env => Sys2Proof.Machine.execTriggerEdge rising gapNs env s
  | .postcardSend => Sys2Proof.Machine.execPostcardSend s
  | .postcard body => Sys2Proof.Machine.execPostcard body s
  | .coasting => Sys2Proof.Machine.execCoasting s
  | .stopped => Sys2Proof.Machine.execStopped s
  | .pressRunFall => Sys2Proof.Machine.execPressRunFall s
  | .pressRunRise => Sys2Proof.Machine.execPressRunRise s
  | .clear => Sys2Proof.Machine.execClear s
  | .timeline => Sys2Proof.Machine.execTimeline s
  | .echo lane msg => Sys2Proof.Machine.execEcho lane msg s
  | .health msg => Sys2Proof.Machine.execHealth msg s
  | .zone msg queueFull => Sys2Proof.Machine.execZone msg queueFull s
  | .link msg => Sys2Proof.Machine.execLink msg s
  | .strayReturnMessage msg => Sys2Proof.Machine.execStrayReturnMessage msg s
  | .rxCodeword lane levels queueFull => Sys2Proof.Machine.execRxCodeword lane levels queueFull s
  | .laneLock lane => Sys2Proof.Machine.execLaneLock lane s
  | .laneLost lane => Sys2Proof.Machine.execLaneLost lane s
  | .swapTimeout strip => Sys2Proof.Machine.execSwapTimeout strip s
  | .lcmdStart lane => Sys2Proof.Machine.execLcmdStart lane s
  | .lcmdStop lane => Sys2Proof.Machine.execLcmdStop lane s
  | .gstart groups => Sys2Proof.Machine.execGstart groups s
  | .cdrLock lane ppm => Sys2Proof.Machine.execCdrLock lane ppm s
  | .blindSettleDone lane => Sys2Proof.Machine.execBlindSettleDone lane s
  | .trainingFrame lane inverted fields check => Sys2Proof.Machine.execTrainingFrame lane inverted fields check s
  | .rxReady lane => Sys2Proof.Machine.execRxReady lane s
  | .holdDone lane => Sys2Proof.Machine.execHoldDone lane s
  | .trainFail lane why => Sys2Proof.Machine.execTrainFail lane why s
  | .esStart ctrl => Sys2Proof.Machine.execEsStart ctrl s
  | .esDone aborted errors compared => Sys2Proof.Machine.execEsDone aborted errors compared s
  | .helloSend lane => Sys2Proof.Machine.execHelloSend lane s
  | .hello lane header content => Sys2Proof.Machine.execHello lane header content s
  | .peerDataCodeword lane header content => Sys2Proof.Machine.execPeerDataCodeword lane header content s
  | .peerRetry side => Sys2Proof.Machine.execPeerRetry side s
  | .peerLost side => Sys2Proof.Machine.execPeerLost side s
  | .verdictMessage side body => Sys2Proof.Machine.execVerdictMessage side body s
  | .mark side body => Sys2Proof.Machine.execMark side body s
  | .peerCountersign body late => Sys2Proof.Machine.execPeerCountersign body late s
  | .tallyMessage record mem => Sys2Proof.Machine.execTallyMessage record mem s
  | .letterFragment side src body mem => Sys2Proof.Machine.execLetterFragment side src body mem s
  | .timeWrap => Sys2Proof.Machine.execTimeWrap s
  | .beyondClear => Sys2Proof.Machine.execBeyondClear s
  | .slewDone => Sys2Proof.Machine.execSlewDone s
  | .snap => Sys2Proof.Machine.execSnap s
  | .endSession => Sys2Proof.Machine.execEndSession s
  | .masterLost => Sys2Proof.Machine.execMasterLost s
  | .ethRxFrame frame fcsOk slip => Sys2Proof.Machine.execEthRxFrame frame fcsOk slip s
  | .ethTxFrame => Sys2Proof.Machine.execEthTxFrame s
  | .txtsTagRead => Sys2Proof.Machine.execTxtsTagRead s
  | .ethLinkChange up => Sys2Proof.Machine.execEthLinkChange up s
  | .zoneSample => Sys2Proof.Machine.execZoneSample s
  | .zoneHold => Sys2Proof.Machine.execZoneHold s
  | .zoneSafe => Sys2Proof.Machine.execZoneSafe s
  | .zoneStart all zone late => Sys2Proof.Machine.execZoneStart all zone late s
  | .zoneStop all zone => Sys2Proof.Machine.execZoneStop all zone s
  | .restart all zone late => Sys2Proof.Machine.execRestart all zone late s
  | .sampleFrame results => Sys2Proof.Machine.execSampleFrame results s
  | .move axis => Sys2Proof.Machine.execMove axis s
  | .home axis => Sys2Proof.Machine.execHome axis s
  | .relative axis => Sys2Proof.Machine.execRelative axis s
  | .axisStep axis => Sys2Proof.Machine.execAxisStep axis s
  | .axisStop axis => Sys2Proof.Machine.execAxisStop axis s
  | .limitTrip axis hi active us => Sys2Proof.Machine.execLimitTrip axis hi active us s
  | .limitClear axis hi lo hiUs loUs => Sys2Proof.Machine.execLimitClear axis hi lo hiUs loUs s
  | .splice => Sys2Proof.Machine.execSplice s
  | .spliceNRise => Sys2Proof.Machine.execSpliceNRise s
  | .hbmRefresh stack => Sys2Proof.Machine.execHbmRefresh stack s
  | .hbmTempRead stack celsius => Sys2Proof.Machine.execHbmTempRead stack celsius s
  | .parityReplay channel recurs recent requests => Sys2Proof.Machine.execParityReplay channel recurs recent requests s
  | .sweepStart ctrl => Sys2Proof.Machine.execSweepStart ctrl s
  | .sweepDone errors => Sys2Proof.Machine.execSweepDone errors s
  | .rateDone => Sys2Proof.Machine.execRateDone s
  | .repair => Sys2Proof.Machine.execRepair s
  | .repairDone outcome => Sys2Proof.Machine.execRepairDone outcome s
  | .eccCorrected ev => Sys2Proof.Machine.execEccCorrected ev s
  | .retireCmd bank => Sys2Proof.Machine.execRetireCmd bank s
  | .retireThreshold bank => Sys2Proof.Machine.execRetireThreshold bank s
  | .retired uncorrectable => Sys2Proof.Machine.execRetired uncorrectable s
  | .keyLoad slot => Sys2Proof.Machine.execKeyLoad slot s
  | .keyErase slot => Sys2Proof.Machine.execKeyErase slot s
  | .vaultWindowAccess write uncorrectable => Sys2Proof.Machine.execVaultWindowAccess write uncorrectable s
  | .wipeCmd => Sys2Proof.Machine.execWipeCmd s
  | .wiped => Sys2Proof.Machine.execWiped s
  | .bar2Access offset op mem => Sys2Proof.Machine.execBar2Access offset op mem s
  | .descFetch ring descriptor ep => Sys2Proof.Machine.execDescFetch ring descriptor ep s
  | .doorbell ring => Sys2Proof.Machine.execDoorbell ring s
  | .ringResume ring => Sys2Proof.Machine.execRingResume ring s
  | .descWriteback ring data rep => Sys2Proof.Machine.execDescWriteback ring data rep s
  | .cqRoom queue head => Sys2Proof.Machine.execCqRoom queue head s
  | .paceRequest line => Sys2Proof.Machine.execPaceRequest line s
  | .softReq lines => Sys2Proof.Machine.execSoftReq lines s
  | .linkDown => Sys2Proof.Machine.execLinkDown s
  | .poisoned => Sys2Proof.Machine.execPoisoned s
  | .flr => Sys2Proof.Machine.execFlr s
  | .cmpStart unit => Sys2Proof.Machine.execCmpStart unit s
  | .cmpTake unit album mem => Sys2Proof.Machine.execCmpTake unit album mem s
  | .cmpDone unit readBackEqual mem => Sys2Proof.Machine.execCmpDone unit readBackEqual mem s
  | .fresh unit => Sys2Proof.Machine.execFresh unit s
  | .continue unit => Sys2Proof.Machine.execContinue unit s
  | .stop unit folded => Sys2Proof.Machine.execStop unit folded s
  | .test unit => Sys2Proof.Machine.execTest unit s
  | .chkTestDone unit pass => Sys2Proof.Machine.execChkTestDone unit pass s
  | .chkScanDone unit mem => Sys2Proof.Machine.execChkScanDone unit mem s
  | .albumScrubStart => Sys2Proof.Machine.execAlbumScrubStart s
  | .albumScrubDone mem => Sys2Proof.Machine.execAlbumScrubDone mem s
  | .runWrite unit hi value => Sys2Proof.Machine.execRunWrite unit hi value s
  | .substWrite value => Sys2Proof.Machine.execSubstWrite value s
  | .ledgerWrite src mem => Sys2Proof.Machine.execLedgerWrite src mem s
  | .ledgerOverrun src => Sys2Proof.Machine.execLedgerOverrun src s
  | .tallySplit => Sys2Proof.Machine.execTallySplit s
  | .segmentClose => Sys2Proof.Machine.execSegmentClose s
  | .segmentPacked failed => Sys2Proof.Machine.execSegmentPacked failed s
  | .segmentExport mem => Sys2Proof.Machine.execSegmentExport mem s
  | .digest => Sys2Proof.Machine.execDigest s
  | .replayStart => Sys2Proof.Machine.execReplayStart s
  | .replayPacer env => Sys2Proof.Machine.execReplayPacer env s
  | .replayEnd => Sys2Proof.Machine.execReplayEnd s
  | .powerIdle => Sys2Proof.Machine.execPowerIdle s
  | .wake cause => Sys2Proof.Machine.execWake cause s
  | .powerOff => Sys2Proof.Machine.execPowerOff s
  | .powerOn vbatLost => Sys2Proof.Machine.execPowerOn vbatLost s
  | .perst => Sys2Proof.Machine.execPerst s
  | .core => Sys2Proof.Machine.execCore s
  | .block page => Sys2Proof.Machine.execBlock page s
  | .pllUnlock domain => Sys2Proof.Machine.execPllUnlock domain s
  | .pllRelock domain => Sys2Proof.Machine.execPllRelock domain s
  | .lifeReq key target => Sys2Proof.Machine.execLifeReq key target s
  | .transition verified => Sys2Proof.Machine.execTransition verified s
  | .tamper samples => Sys2Proof.Machine.execTamper samples s
  | .tamperClear => Sys2Proof.Machine.execTamperClear s
  | .pcieLinkUp width speed => Sys2Proof.Machine.execPcieLinkUp width speed s
  | .msixTableAccess offset write => Sys2Proof.Machine.execMsixTableAccess offset write s
  | .configAccess op => Sys2Proof.Machine.execConfigAccess op s
  | .dirRest axis => Sys2Proof.Machine.execDirRest axis s
  | .writeDrainAge channel pc => Sys2Proof.Machine.execWriteDrainAge channel pc s
  | .jtagInstruction op => Sys2Proof.Machine.execJtagInstruction op s
  | .tapReset => Sys2Proof.Machine.execTapReset s

end Sys2Proof.Machine
end

