-- ==== Sys2Proof/Safety.lean ====
section
/-! DEFINITION. What counts as a safe run: no step of it stops; and the shape that every state of a run has. -/

namespace Sys2Proof.Machine

/-- The step answers a next state. -/
def stepsOn (s : State) : Prop := ∃ t, step s = .next t

/-- Every one of the next `k` steps answers a next state. -/
def runsOn (s : State) : Nat → Prop
  | 0 => True
  | k + 1 => ∃ t, step s = .next t ∧ runsOn t k

/-- Every bank of scratch stands in its own physical bank, in use, the reserve of the running retirement in another that is being copied to, and
what waits for retirement are logical banks (R510, R519, R520). -/
def banksApart (c : Scratch) : Bool :=
  c.map.length == 64 && c.state.length == 68 && decide c.map.Nodup && (c.map.all fun p => c.state.getD p 9 == 0) &&
  (c.queue.all fun b => decide (b < 64)) &&
  c.retiring.all fun r => decide (r.bank < 64) && r.old == c.map.getD r.bank 0 && c.state.getD r.reserve 9 == 2

/-- The memories and the registers are in their canonical form, and every list that stands for a fixed number of units has that number. -/
def wellShaped (s : State) : Prop :=
  (memWf s.mem = true ∧ memWf s.vault.mem = true ∧ risingFrom 0 s.regs = true ∧ risingFrom 0 s.act = true) ∧
  (s.irq.level.length = 60 ∧ s.irq.table.length = 64 ∧ s.slots.length = 4 ∧ s.mail.decs.length = 8 ∧ s.cmp.length = 2) ∧
  (s.lanes.lane.length = 25 ∧ s.lanes.pair.length = 25 ∧ s.lanes.order.length = 4 ∧ s.peers.side.length = 2) ∧
  (s.dma.ring.length = 32 ∧ s.dma.stream.length = 32 ∧ s.chk.unit.length = 9 ∧ s.chk.failed.length = 9) ∧
  (s.loops.zone.length = 64 ∧ s.samples.length = 16 ∧ s.axes.length = 4 ∧ s.hbm.temp.length = 2 ∧ s.hbm.hot.length = 2) ∧
  banksApart s.scr = true

end Sys2Proof.Machine
end

