-- ==== Sys2Proof/Certificates/Slice0/Obligations.lean ====
section
/-! DEFINITION. The statements for the provers. `s.power.st ≠ 4` says that the main rails are on (R607); `settle` is the end of a command,
where the levels of the interrupt sources follow their pages and their messages go out (R40, R41). A statement that an answer is
`.next (settle s t)` with `t` written out is also the command's frame: what `t` does not name is as in `s`. -/

open Sys2Proof Sys2Proof.Machine

/-- O1. For every command c and state s with c at the front of its queue, step of s is exec of c on s with the rest of the queue. -/
def Obligations.StepRunsFront : Prop :=
  ∀ (c : Instr) (rest : List Instr) (s : State), s.pending = c :: rest → step s = exec c { s with pending := rest }

/-- O2. Whatever command runs, when it answers a next state the queue of waiting commands is the one it found. -/
def Obligations.QueueUntouched : Prop :=
  ∀ (c : Instr) (s t : State), exec c s = .next t → t.pending = s.pending

/-- O3. Every command answers a next state from every state, except that JTAG_INSTRUCTION with a test instruction code of which the spec
says nothing (R649) is refused by name under full test access; outside full test access, and in OFF, that one answers a next state too. -/
def Obligations.EveryCommandAnswers : Prop :=
  (∀ (c : Instr) (s : State), (∀ code, c ≠ .jtagInstruction (.otherTest code)) → ∃ t, exec c s = .next t) ∧
  (∀ (code : Nat) (s : State), (s.life.st = 2 ∨ s.life.st = 4) → ∃ t, exec (.jtagInstruction (.otherTest code)) s = .next t) ∧
  (∀ (code : Nat) (s : State), s.power.st ≠ 4 → s.life.st = 1 →
    exec (.jtagInstruction (.otherTest code)) s = .refused .jtagUnspecified)

/-- O4. Whatever command a step runs, and in a step that runs none, if it answers a next state whose main rails are on, then the level of
every source n from 0 to 59 is 1 exactly when some bit of IRQ_RAW of its page is set whose bit of IRQ_MASK is set; source n below 28 is
page n, and source 28 + k is RING[k]. -/
def Obligations.LevelsFollowPages : Prop :=
  ∀ (s t : State), step s = .next t → t.power.st ≠ 4 →
    ∀ n : Fin 60, t.irq.level.getD n.val false = (t.reg (pageBase n.val + 0x010) &&& t.reg (pageBase n.val + 0x014) != 0)

/-- O5. At reset the main rails are on, and the level of every interrupt source is 0, as its page's IRQ_RAW and IRQ_MASK are (the state at
reset is the one before step 2 of R620, with the model's own choices of logs 6 and 9 to 12 where the spec gives no value). Of the values
other than 0 that the register tables give, the registers hold at reset those named here: every page's identification word, IRQ_ROUTE[s] =
s, the tile and lane maps, the DAMAGE masks, and the single values and arrays of each page; every job slot is EMPTY, every lane OFF, both
sides DOWN, no segment is outstanding, no command waits, and the lists of the model have their lengths (R22, R28, R41, R71, R322, R396 and
the register tables; what no register shows is empty or 0 by the model's choice, log 10). -/
def Obligations.ResetState : Prop :=
  (State.reset.power.st ≠ 4 ∧
   ∀ n : Fin 60, State.reset.irq.level.getD n.val false = false ∧ State.reset.reg (pageBase n.val + 0x010) = 0 ∧
     State.reset.reg (pageBase n.val + 0x014) = 0) ∧
  ((let r (page offset : Nat) : Nat := State.reset.reg (pageBase page + offset);
     (∀ p < 60, r p 0 = (if p < 28 then p else 0x100 + (p - 28)) * 0x10000 + 0x100) ∧ (∀ i < 60, r 0 (0x400 + 4 * i) = i) ∧
     (∀ i < 4, r 8 (0x158 + 0x20 * i) = 0xFFFFFFFF ∧ r 8 (0x15C + 0x20 * i) = 0xFFFF) ∧
     (∀ i < 4, r 12 (0x1C0 + 8 * i) = 0xFFFFFFFF ∧ r 12 (0x1C4 + 8 * i) = 0xFFFF) ∧ (∀ i < 32, r 12 (0x100 + 4 * i) = i) ∧
     (∀ i < 16, r 18 (0x100 + 4 * i) = if i < 8 then i else i + 1) ∧
     (∀ n < 25, r 19 (0x200 + 0x40 * n) = (if n = 24 then 0x20 else 0x21) ∧ r 19 (0x20C + 0x40 * n) = 0x00400000 ∧ r 19 (0x210 + 0x40 * n) = 0x00400000) ∧
     (∀ i < 32, r 23 (0x360 + 4 * i) = 0x40004000) ∧ (∀ z < 64, r 23 (0x804 + 0x10 * z) = 0x7FFF7FFF) ∧
     (∀ i < 4, r 24 (0x100 + 0x40 * i) = 0x32640080 ∧ r 24 (0x104 + 0x40 * i) = 1000000 ∧ r 24 (0x108 + 0x40 * i) = 500 ∧
       r 24 (0x110 + 0x40 * i) = 10000000 ∧ r 24 (0x118 + 0x40 * i) = 20000 ∧ r 24 (0x11C + 0x40 * i) = 0x001000C8) ∧
     (∀ u < 9, r 26 (0x100 + 0x80 * u) = 0x10200000) ∧ (∀ n < 32, r (28 + n) 0x10C = 0x08000000 ∧ r (28 + n) 0x110 = 0x10) ∧
     r 0 8 = 1 ∧ r 2 8 = 1 ∧ r 10 8 = 2 ∧ r 27 8 = 2 ∧
     r 0 0x104 = 0x27414100 ∧ r 1 0x104 = 0x3E8 ∧ r 1 0x108 = 0x01FC0000 ∧ r 1 0x10C = 1 ∧ r 4 0x100 = 0x00300030 ∧ r 5 0x100 = 0x80000040 ∧
     r 5 0x108 = 0x400 ∧ r 7 0x104 = 0x30100014 ∧
     r 7 0x108 = 0x10000002 ∧ r 7 0x10C = 0x00690355 ∧ r 7 0x134 = 0x40010000 ∧ r 8 0x104 = 0x100 ∧ r 8 0x108 = 0x4E2 ∧ r 8 0x10C = 0xC3500 ∧
     r 8 0x110 = 0x7D00 ∧ r 9 0x100 = 0xFF ∧ r 10 0x118 = 0x80000000 ∧ r 10 0x158 = 0x80000000 ∧ r 13 0x10C = 0x100 ∧ r 14 0x100 = 0x00100520 ∧
     r 14 0x108 = 0x01000000 ∧ r 14 0x10C = 8 ∧
     r 15 0x150 = 0x00010000 ∧ r 15 0x158 = 0x00401000 ∧ r 15 0x180 = 0x00100000 ∧ r 15 0x184 = 0x00100000 ∧ r 15 0x200 = 0x00FF0100 ∧ r 16 0x100 = 0x40 ∧
     r 16 0x108 = 0x00310064 ∧ r 17 0x104 = 0x00010001 ∧ r 17 0x110 = 0x120300FA ∧ r 17 0x114 = 0x15 ∧ r 17 0x118 = 0x4000 ∧ r 17 0x124 = 450000 ∧
     r 17 0x128 = 64 ∧ r 17 0x12C = 1000 ∧ r 17 0x130 = 2222 ∧ r 17 0x134 = 25 ∧ r 17 0x138 = 0xC80A ∧ r 17 0x13C = 4096 ∧ r 18 0x140 = 0x01680083 ∧
     r 18 0x298 = 450000 ∧ r 18 0x29C = 450000 ∧ r 19 0x104 = 0x401001F4 ∧
     r 19 0x108 = 0x40 ∧ r 19 0x124 = 0x18000040 ∧ r 19 0x138 = 1 ∧ r 20 0x100 = 0x10 ∧ r 20 0x104 = 0x00020083 ∧ r 20 0x108 = 0x04040008 ∧
     r 21 0x100 = 2 ∧ r 21 0x108 = 0x64 ∧ r 21 0x10C = 0x3E8 ∧ r 21 0x11C = 0x0BB80000 ∧ r 22 0x118 = 0x0047002E ∧ r 23 0x100 = 0x004009C4 ∧
     r 23 0x104 = 450000 ∧ r 23 0x108 = 0x00C80040 ∧ r 23 0x300 = 0x1000 ∧ r 23 0x340 = 0x7FFF0000 ∧ r 23 0x400 = 0x10001000 ∧
     r 24 0x20C = 1000000 ∧ r 24 0x210 = 500 ∧ r 25 0x100 = 0x09100000 ∧ r 27 0x10C = 0x0B0003E8 ∧ r 27 0x114 = 0x100 ∧
     r 27 0x258 = 250000) ∧
   (∀ n < 4, (State.reset.slotOf n).st = .empty) ∧ (∀ n < 25, (State.reset.laneOf n).tstate = 0 ∧ (State.reset.laneOf n).link = 0) ∧
   (∀ d < 2, (State.reset.sideOf d).up = false) ∧ State.reset.segs = [] ∧ State.reset.pending = [] ∧ State.reset.lineTime = 0 ∧
   wellShaped State.reset)

/-- O6. When the levels after a command's effect are 1 only where they were 1 before, the end of the command sends no MSI-X message and
changes nothing but the stored levels (R41). A source outside holdoff whose vector is unmasked sends one MSI-X message with the address
and data of the vector that its IRQ_ROUTE names; with HOLDOFF 0 no holdoff opens; while the vector is masked, its pending bit is set and
nothing is sent; and a source in holdoff sends nothing and is marked (R41; that a masked vector keeps a pending bit, and how an entry of
the MSI-X table lays out its address, data and mask, are the PCI Express Base Specification's, which the model presumes, log 13). -/
def Obligations.MessagesOfSources : Prop :=
  (∀ (s t : State), s.power.st ≠ 4 → (∀ n : Fin 60, t.levelOf n.val = true → t.irq.level.getD n.val false = true) →
     settle s t = { t with pending := s.pending, irq := { t.irq with level := t.levels } }) ∧
  (∀ (s : State) (n : Fin 60),
     (keyGet s.irq.holdoff n.val = none → bits (s.reg (CHIP.IRQ_ROUTE n.val)) 27 16 = 0 →
       let v := bits (s.reg (CHIP.IRQ_ROUTE n.val)) 5 0
       let e := s.irq.table.getD v {}
       (e.masked = false → s.notify n.val = s.emit (.msix v (e.addrLo.toNat + e.addrHi.toNat * 2 ^ 32) e.data)) ∧
       (e.masked = true → (s.notify n.val).out = s.out ∧ v ∈ (s.notify n.val).irq.pba)) ∧
     (∀ b, keyGet s.irq.holdoff n.val = some b →
       s.notify n.val = { s with irq := { s.irq with holdoff := keySet s.irq.holdoff n.val true } }))

/-- O7. While the main rails are off, every command but POWER_ON and TAMPER, and but a refused test instruction, answers the state it
found (R607; that commands wait for nothing there is the model's choice, log 28). In READY, with no lane still to be brought up after NAP,
when the device is quiet, PWR.CTRL.EN is 1, the latency tolerance is at least 60 us and below 1500 us and no rate change runs, POWER_IDLE
enters DOZE with HBM in power-down, counts the entry, waits a STATE record of the old and new state and raises IRQ_RAW.STATE; in DOZE, and
in NAP where NAP powered no lane down, with nothing that keeps the device in WRITE, WAKE goes back to READY with HBM active, the activate
tables cleared where it was in self-refresh, and LAST_WAKE the cause; in READY, WAKE has no effect, and in WRITE and READY no other wake
event has one; every command that is an access to BAR0 or BAR2 acts in DOZE and NAP as after the exit to READY with LAST_WAKE REGISTER
(R492, R607 to R611; which commands wake, and the order of the causes, is the model's reading, log 54). POWER_OFF leaves the state OFF, no
clock, READY 0, HEAD_SAFE low, the TAP at its reset and the clearing of scratch due (SCR.STATUS), changes nothing else, and leaves no
output ball a level; POWER_ON, from any state, starts in READY with every clock, reset cause 0, no wrong return code counted, ID_BAD
exactly when CHECK of the stored identity page is not the CRC-32C of its bytes 0 to 27, line time 0, empty job slots, an empty vault and
scratch in its first mapping (R607, R618, R620, R624, R629, R642; log 14 for the TAP). -/
def Obligations.PowerStates : Prop :=
  (∀ (c : Instr) (s t : State), s.power.st = 4 → (∀ l, c ≠ .tamper l) → (∀ a, c ≠ .powerOn a) → exec c s = .next t → t = s) ∧
  ((∀ s : State, s.power.st = 1 → s.power.napped = [] → s.quiet = true → s.enabled pPWR = true → 60 ≤ s.ltr → s.ltr < 1500 → s.hbm.rateBusy = false →
     exec .powerIdle s = .next (settle s
       (((({ s with hbm := { s.hbm with low := 1 }, power := { s.power with st := 2 } } : State).bump PWR.DOZE_ENTRIES 1).event pPWR V.STATE
         [.f 1 1, .f 1 2, .f 1 s.power.lastWake]).raise pPWR 2))) ∧
   (∀ (s : State) (w : WakeCause), s.power.st = 2 ∨ s.power.st = 3 → s.power.napped = [] → s.mustWrite = false → s.hbm.rateBusy = false →
     ∃ t, exec (.wake w) s = .next t ∧ t.power = { s.power with st := 1, lastWake := wakeCode w } ∧
       t.hbm = { s.hbm with low := 0, tables := if s.hbm.low = 2 then [] else s.hbm.tables } ∧
       t.mem = s.mem ∧ t.slots = s.slots ∧ t.lanes = s.lanes) ∧
   (∀ (s : State) (w : WakeCause), s.power.st = 1 → s.power.napped = [] → s.mustWrite = false → exec (.wake w) s = .next (settle s s)) ∧
   (∀ (s : State) (cause : Nat), s.power.st = 0 ∨ s.power.st = 1 → s.power.napped = [] → s.wakes cause = s) ∧
   (∀ (s : State) (p : Fin 60) (g : Byte) (k : Fin 4) (n : Fin 25) (u : Fin 9) (z : Fin 64) (r : Fin 32) (q : Fin 8) (c : Fin 2) (m : Fin 16)
     (i j l : Bool) (w : Word) (x y : Nat) (h : BitVec 4) (f : BitVec 16) (b : BitVec 6) (t : BitVec 3) (o : BitVec 36) (e : Bar2Op) (d : MemRep)
     (a : BitVec 24) (bs : List (Option Byte)) (en : List Bool) (v : Option Word),
     s.power.st = 2 ∨ s.power.st = 3 → ∀ i' ∈ ([.registerWrite a bs l, .readClear a en, .unmapped i a, .irqRawClear p w, .commitGroup p g l, .mailResume,
       .mailGo k l, .mailAbort k l, .clear, .lcmdStart n, .lcmdStop n, .gstart h, .esStart w, .snap, .endSession, .txtsTagRead, .zoneStart i z l,
       .zoneStop i z, .restart i z l, .axisStop k, .limitClear k i j x y, .sweepStart w, .repair, .retireCmd z, .keyLoad m, .keyErase m,
       .vaultWindowAccess v i, .wipeCmd, .doorbell r, .ringResume r, .softReq f, .cmpStart c, .fresh u, .continue u, .stop u x, .test u, .runWrite u i w,
       .substWrite w, .replayStart, .block b, .lifeReq g t, .tamperClear, .cqRoom q f, .bar2Access o e d] : List Instr),
       exec i' s = exec i' (s.wakeEvent wakeREGISTER) ∧ (s.wakeEvent wakeREGISTER).power.st = 1 ∧
         (s.wakeEvent wakeREGISTER).power.lastWake = wakeREGISTER)) ∧
  ((∀ s : State, s.power.st ≠ 4 →
     exec .powerOff s = .next (settle s { s with headSafe := false, tap := {}, scr := { s.scr with clearing := true }, power := { s.power with st := 4, clocks := 0, ready := false } })) ∧
   (∀ s : State, s.power.st ≠ 4 → ∀ t, exec .powerOff s = .next t → ∀ b, t.ballLevel b = none) ∧
   (∀ (s : State) (vbatLost : Bool), ∃ t, exec (.powerOn vbatLost) s = .next t ∧
     t.power.st = 1 ∧ t.power.clocks = 0x7F ∧ t.power.ready = true ∧ t.power.resetCause = 0 ∧ t.life.wrongCodes = 0 ∧
     t.life.idBad = (crc32c (s.life.idPage.take 28) != fld s.life.idPage 28 4) ∧ t.lineTime = 0 ∧ t.slots = State.reset.slots ∧ t.vault = State.reset.vault ∧ t.scr = State.reset.scr ∧
     t.mem = [] ∧ t.web.press = s.web.press ∧ t.web.spliceN = s.web.spliceN))

/-- O8. CORE and PERST leave READY with every clock and their own reset cause (2 and 1), line time 0, empty job slots, time, lanes and
WIPE_STATUS at reset, and keep the vault's contents, the map of scratch banks, the life cycle state and every byte of scratch, where no
retirement ran; every byte of HBM reads from then on as a free value of that reset; CORE keeps the PCI Express link and the sizes and
enables of configuration space, PERST resets them (R618). A lost PLL of domain 4 or 6 clears its bit of CLK_STATUS, stops that domain and
raises CHIP IRQ_RAW.CLK, and nothing else; of any other domain it makes a CORE reset with cause 3; PLL_RELOCK of a stopped domain sets the
bit again, starts it and records it, with a code that the model leaves free, and the correction requests that waited for the time clock
land (that they wait is the model's choice, log 76); of a domain that runs it has no effect (R412, R617, log 21). BLOCK of a page that it
may reset, outside WRITE and with CTRL.EN of the page at 0, leaves every register of that page at its reset value (IRQ_RAW of AXIS may
hold the rise of HEAD_SAFE, R478), and of a page it may not reset, or in WRITE, only sets RST_REFUSED (in DOZE and NAP after the wake of
O7) in CHIP.STATUS (R619); FLR leaves every ring halted and empty, the MSI-X table at reset, no holdoff, no pending bit (but that of a
source which rises with the reset itself), every IRQ_ROUTE at its reset value, Max_Read_Request_Size 512 and the reset cause FLR (R537,
R618; log 64). -/
def Obligations.Resets : Prop :=
  (∀ (s : State), s.power.st ≠ 4 → ∀ c : Instr, c = .core ∨ c = .perst →
     ∃ t, exec c s = .next t ∧ t.power.st = 1 ∧ t.power.clocks = 0x7F ∧ t.power.ready = true ∧
       t.power.resetCause = (if c = .core then 2 else 1) ∧ t.lineTime = 0 ∧ t.slots = State.reset.slots ∧ t.time = State.reset.time ∧
       t.lanes = State.reset.lanes ∧ t.vault.mem = s.vault.mem ∧ t.vault.valid = s.vault.valid ∧ t.vault.wiped = 0 ∧ t.scr.map = s.scr.map ∧
       t.life.st = s.life.st ∧ (∀ a, a < scratchBase → t.devByte a = Config.freeByte s.free a) ∧
       (s.scr.retiring = none → ∀ a, scratchBase ≤ a → t.devByte a = s.devByte a) ∧
       (c = .core → t.host.link = s.host.link ∧ t.host.maxPayload = s.host.maxPayload ∧ t.host.maxRead = s.host.maxRead ∧ t.host.d3hot = s.host.d3hot) ∧
       (c = .perst → t.host = State.reset.host)) ∧
  (∀ (s : State), s.power.st ≠ 4 →
     (∀ d : Fin 7, (d.val = 4 ∨ d.val = 6) → exec (.pllUnlock d) s = .next (settle s
       (({ s with power := { s.power with clocks := putBit s.power.clocks d false,
                                          stopped := s.power.stopped.filter (· != d.val) ++ [d.val] } } : State).raise pCHIP 2))) ∧
     (∀ d : Fin 7, d.val ≠ 4 → d.val ≠ 6 → ∃ t, exec (.pllUnlock d) s = .next t ∧ t.power.st = 1 ∧ t.power.resetCause = 3 ∧
       t.power.clocks = 0x7F ∧ t.slots = State.reset.slots) ∧
     (∀ d : Fin 7, s.power.stopped.contains d.val = true → exec (.pllRelock d) s = .next (settle s
       ((({ s with power := { s.power with clocks := putBit s.power.clocks d true, stopped := s.power.stopped.filter (· != d.val) } } : State).event pCHIP
         (evCode pCHIP Config.pllRelockEvent.toNat) [.f 1 d, .lt s.lineTime]).requestsLand))) ∧
     (∀ d : Fin 7, s.power.stopped.contains d.val = false → exec (.pllRelock d) s = .next (settle s s)) ∧
     (s.time.requests = [] → s.requestsLand.time = s.time)) ∧
  ((∀ (s : State) (p : BitVec 6), s.power.st ≠ 4 → s.power.st ≠ 0 → blockPages.contains p.toNat = true → s.enabled p.toNat = false →
     ∃ t, exec (.block p) s = .next t ∧ ∀ a, pageOf a = some p.toNat → a ≠ IRQ_RAW 24 → t.reg a = (resetOf a).toNat) ∧
   (∀ (s : State) (p : BitVec 6), s.power.st ≠ 4 → s.power.st < 2 → (s.power.st = 0 ∨ blockPages.contains p.toNat = false) →
     exec (.block p) s = .next (settle s (s.setBits (STATUS pCHIP) 64))) ∧
   (∀ (s : State), s.power.st ≠ 4 → ∃ t, exec .flr s = .next t ∧ t.power = { s.power with resetCause := 4 } ∧
     t.dma.ring = s.dma.ring.map (fun _ => { halted := true }) ∧ t.irq.table = State.reset.irq.table ∧ t.irq.holdoff = [] ∧
     ((∀ n : Fin 60, t.levelOf n.val = true → s.irq.level.getD n.val false = true) → t.irq.pba = []) ∧ t.host.maxRead = 512 ∧ t.lineTime = s.lineTime ∧
     t.slots = s.slots ∧ t.mem = s.mem ∧ ∀ i : Fin 60, t.reg (CHIP.IRQ_ROUTE i.val) = (resetOf (CHIP.IRQ_ROUTE i.val)).toNat))

/-- O9. Outside DOZE and NAP, from which it wakes the device first (O7), LIFE_REQ without the key 0xC3 has no effect; with it, a
transition that the table of R623 does not allow is refused NOT_ALLOWED; one to RETURNED after three wrong codes is refused LOCKOUT,
whatever else holds; any other one during WRITE, a wipe or a transition is refused BUSY; a return to RETURNED is refused CODE, and
counted, when the code differs; and any other one starts; a refusal records LIFE_REFUSED, sets WHY and raises IRQ_RAW.REFUSED and changes
nothing else (R623 to R625, R632; that NOT_ALLOWED comes before the other reasons is the model's choice, log 65). TRANSITION with a
verified target makes it the life-cycle state, starts a wipe of cause LIFE, records TRANSITION with the old and the new state and raises
IRQ_RAW.CHANGED, and holds MAIL.CTRL.EN at 0 outside DEVELOP and FIELD; where the target is SCRAPPED, the transmitters of lanes 0 to 17 go
OFF as well; with a failed verification the state stays and the request is refused FUSE; with no transition running it has no effect
(R622, R625, R529). -/
def Obligations.LifeCycle : Prop :=
  (∀ (s : State) (key : Byte) (t : BitVec 3), s.power.st < 2 →
     let refused (why : Nat) (u : State) : State := (({ u with life := { u.life with why := why } } : State).error pLIFE E.LIFE_REFUSED []).raise pLIFE 4
     let answer (u : State) : Prop := exec (.lifeReq key t) s = .next (settle s u)
     let allowed := (s.life.st = 1 ∧ t = 2) ∨ (s.life.st = 2 ∧ t = 3) ∨ (s.life.st < 4 ∧ t = 4)
     let locked := t = 3 ∧ 3 ≤ s.life.wrongCodes
     let busy := s.power.st = 0 ∨ s.vault.wiping.isSome ∨ s.life.target.isSome
     (key.toNat ≠ 0xC3 → answer s) ∧
     (key.toNat = 0xC3 → ¬allowed → answer (refused 1 s)) ∧
     (key.toNat = 0xC3 → allowed → locked → answer (refused 4 s)) ∧
     (key.toNat = 0xC3 → allowed → ¬locked → busy → answer (refused 2 s)) ∧
     (key.toNat = 0xC3 → allowed → ¬locked → ¬busy → t = 3 → s.codeBytes ≠ s.returnCode →
       answer (refused 3 { s with life := { s.life with wrongCodes := s.life.wrongCodes + 1 } })) ∧
     (key.toNat = 0xC3 → allowed → ¬locked → ¬busy → (t = 3 → s.codeBytes = s.returnCode) →
       answer { s with life := { s.life with target := some t.toNat } })) ∧
  (∀ (s : State), s.power.st ≠ 4 →
     let taken (t : Nat) : State :=
       (((({ s with life := { s.life with st := t, target := none }, vault := { s.vault with wiping := some 2 } } : State).event pLIFE V.TRANSITION
         [.f 1 s.life.st, .f 1 t]).raise pLIFE 3)).mailHeld
     (s.life.target = none → ∀ v, exec (.transition v) s = .next (settle s s)) ∧
     (∀ t, s.life.target = some t → t ≠ 4 → exec (.transition true) s = .next (settle s (taken t))) ∧
     (s.life.target = some 4 → exec (.transition true) s = .next (settle s ((List.range 18).foldl State.laneStop (taken 4)))) ∧
     (s.life.target = some 4 → s.lanes.lane.length = 25 →
       ∃ u, exec (.transition true) s = .next u ∧ u.life.st = 4 ∧ ∀ n < 18, (u.laneOf n).tstate = 0 ∧ (u.laneOf n).link = 0) ∧
     (∀ t, s.life.target = some t → exec (.transition false) s = .next (settle s
       ((({ s with life := { s.life with target := none, why := 5 } } : State).error pLIFE E.LIFE_REFUSED []).raise pLIFE 4))))

/-- O10. With TAMPER_CFG.EN at 1, each sample of TAMPER drives the next bit of the LFSR on TAMPER_A, sets MISMATCH exactly where the
sample differs from it, and counts the matching samples that TAMPER_CLEAR still needs, 16 from a mismatch on; a second one in a row that
differs sets the latch, and while the main rails are on also starts a wipe of cause TAMPER, records TAMPER, counts it and raises
IRQ_RAW.TAMPER; a list of samples acts one after another; with EN at 0 TAMPER has no effect (that the mesh is then not sampled is the
model's reading, log 65); TAMPER_CLEAR, outside DOZE and NAP, clears the latch, with a TAMPER_CLEARED record, only where the last 16
samples matched (R626 to R628; the LFSR's form is log 79). TAP_RESET puts IDCODE in force with the identification 0x027416B5; IDCODE
shifts those 32 bits out, BYPASS one bit of 0; SAMPLE captures the levels of the 37 balls of the chain, inputs as they stand and outputs
as driven, shifts them out and latches what is shifted in; EXTEST drives every output ball from the latch, and after its scan with the
level shifted in; each leaves every register, the memories and the life cycle alone; BLANK to DEVELOP starts a transition only in BLANK
(R635, R649, R623; what the instructions do is IEEE 1149.1, and the order of the chain is the model's choice, log 14). -/
def Obligations.TamperAndTap : Prop :=
  ((∀ (s : State) (b : Bool), s.life.tamperEn = true →
     let l := lfsrNext s.life.lfsr
     let same := b == bit l 0
     let u : State := { s with life := { s.life with lfsr := l, mismatch := !same, unmatched := if same then s.life.unmatched - 1 else 16 }
                               out := s.out ++ [.tamperA (bit l 0)] }
     (same = true ∨ s.life.mismatch = false → exec (.tamper [b]) s = .next (settled s u)) ∧
     (same = false → s.life.mismatch = true → s.power.st = 4 → exec (.tamper [b]) s = .next (settled s { u with life := { u.life with latch := true } })) ∧
     (same = false → s.life.mismatch = true → s.power.st ≠ 4 → exec (.tamper [b]) s = .next (settled s
       (((({ u with life := { u.life with latch := true }, vault := { s.vault with wiping := some 1 } } : State).error pLIFE E.TAMPER []).bump
         LIFE.TAMPERS 1).raise pLIFE 2)))) ∧
   (∀ (s : State) (b : Bool) (l : List Bool), s.tamper (b :: l) = (s.tamper [b]).tamper l) ∧
   (∀ (s : State) (l : List Bool), s.life.tamperEn = false → exec (.tamper l) s = .next (settled s s)) ∧
   (∀ s : State, s.power.st < 2 →
     (s.life.unmatched = 0 → exec .tamperClear s = .next (settle s (({ s with life := { s.life with latch := false } } : State).event pLIFE
       V.TAMPER_CLEARED []))) ∧
     (s.life.unmatched ≠ 0 → exec .tamperClear s = .next (settle s s)))) ∧
  (∀ (s : State), s.power.st ≠ 4 →
     exec .tapReset s = .next (settle s { s with tap := { ir := 1, dr := 0x027416B5, sampled := [], latch := List.replicate 37 false, driven := none } }) ∧
     exec (.jtagInstruction .idcode) s = .next (settle s { s with tap := { s.tap with ir := 1, dr := 0x027416B5, driven := none }
                                                                  out := s.out ++ [.tdo ((List.range 32).map (bit 0x027416B5))] }) ∧
     exec (.jtagInstruction .bypass) s = .next (settle s { s with tap := { s.tap with ir := 0, dr := 0, driven := none }, out := s.out ++ [.tdo [false]] }) ∧
     (∀ pins load, load.length = 37 → ∃ c : List Bool, c.length = 37 ∧
       exec (.jtagInstruction (.samplePreload pins load)) s =
         .next (settle s { s with tap := { s.tap with ir := 2, sampled := c, latch := load, driven := none }, out := s.out ++ [.tdo c] }) ∧
       ∀ b < 37, c.getD b false = if ballDriven b then (({ s with tap := { s.tap with driven := none } } : State).ballLevel b).getD false else pins.getD b false) ∧
     (∀ pins load, load.length = 37 → ∃ t, exec (.jtagInstruction (.extest pins load)) s = .next t ∧ t.tap.ir = 3 ∧ t.tap.latch = load ∧
       (∀ b < 37, t.tap.sampled.getD b false = if ballDriven b then s.tap.latch.getD b false else pins.getD b false) ∧
       (∀ b, t.ballLevel b = some (load.getD b false)) ∧ t.regs = s.regs ∧ t.mem = s.mem ∧ t.life = s.life) ∧
     (s.life.st ≠ 0 → exec (.jtagInstruction .blankToDevelop) s = .next (settle s s)) ∧
     (s.life.st = 0 → s.life.target = none → s.vault.wiping = none →
       exec (.jtagInstruction .blankToDevelop) s = .next (settle s { s with life := { s.life with target := some 1 } })))

/-- O11. On every page, COMMIT_GROUP with group 0 leaves GROUP 0 and COMMIT.REJECTED as it was, and changes no active copy, no pending set
and no staged value; as an access to BAR0 it wakes the device first. -/
def Obligations.CommitZero : Prop :=
  (∀ (s : State) (p : Fin 60) (late : Bool), s.power.st ≠ 4 →
    let w := s.wakeEvent wakeREGISTER
    exec (.commitGroup p 0 late) s = .next (settle s (w.setReg (COMMIT p.val) (putField (w.reg (COMMIT p.val)) 7 0 0))) ∧
    (w.setReg (COMMIT p.val) (putField (w.reg (COMMIT p.val)) 7 0 0)).act = s.act ∧
    (w.setReg (COMMIT p.val) (putField (w.reg (COMMIT p.val)) 7 0 0)).pend = s.pend) ∧
  (∀ v, v < 2 ^ 32 → bit (putField v 7 0 0) 8 = bit v 8 ∧ bits (putField v 7 0 0) 7 0 = 0)

/-- O12. On every page but AXIS, COMMIT_GROUP of a group whose staged fields do not agree, or of a number that names no group of the page,
only keeps the number, sets COMMIT.REJECTED and records COMMIT_REJECT, and sets LATE where it lands in the hand-over cycle of a shadowed
group (R31, R36); no group of SAMPLE exists, so every number is refused there. A COMMIT_GROUP that agrees, of a group that hands over at
an event, changes no active copy and puts the group's registers into the pending set, replacing an earlier set of the same hand-over; a
late one stays beside an earlier one that hands over first (the model's reading, log 66). LOOP group 2 asks for the swap of the banks at
the next zone sample. A group that no event hands over takes its staged values into the active copies at once, and what it starts beyond
that is the page's own commit. -/
def Obligations.CommitOutcomes : Prop :=
  ((∀ (s : State) (p : Fin 60) (g : Byte) (late : Bool), s.power.st ≠ 4 → g ≠ 0 → p.val ≠ 24 →
     let w := s.wakeEvent wakeREGISTER
     let v := w.setReg (COMMIT p.val) (putField (w.reg (COMMIT p.val)) 7 0 g.toNat)
     let u := if late && groupShadowed p.val g.toNat then v.setLate p.val else v
     u.agrees p.val g.toNat = false →
     exec (.commitGroup p g late) s = .next (settle s ((u.setBits (COMMIT p.val) 0x100).error p.val E.COMMIT_REJECT []))) ∧
   (∀ (s : State) (g : Nat), s.agrees 25 g = false)) ∧
  ((∀ (s : State) (p : Fin 60) (g : Byte) (late : Bool), s.power.st ≠ 4 → g ≠ 0 → p.val ≠ 24 →
     let w := s.wakeEvent wakeREGISTER
     let v := w.setReg (COMMIT p.val) (putField (w.reg (COMMIT p.val)) 7 0 g.toNat)
     let u := if late && groupShadowed p.val g.toNat then v.setLate p.val else v
     let same (q : Pend) : Bool := q.page == p.val && q.group == g.toNat && q.late == late
     u.agrees p.val g.toNat = true →
     (¬(p.val = 23 ∧ g.toNat = 2) → groupEvent p.val g.toNat ≠ .none →
       ∃ t, exec (.commitGroup p g late) s = .next t ∧ t.act = s.act ∧ t.mem = s.mem ∧ (t.pend.filter same).length = 1 ∧
         (∃ q ∈ t.pend, same q = true ∧ q.vals = (groupRegs p.val g.toNat).map fun a => (a, BitVec.ofNat 32 (u.commitAccepted p.val |>.reg a))) ∧
         (t.pend.filter fun q => !same q) = s.pend.filter fun q => !same q) ∧
     (p.val = 23 → g.toNat = 2 → ∃ t, exec (.commitGroup p g late) s = .next t ∧
       t.loops = { s.loops with pendingSwap := true, swapLate := late } ∧ t.act = s.act ∧ t.pend = s.pend ∧ t.mem = s.mem) ∧
     (¬(p.val = 23 ∧ g.toNat = 2) → groupEvent p.val g.toNat = .none → risingFrom 0 s.act = true →
       exec (.commitGroup p g late) s = .next (settle s ((u.commitNow p.val g.toNat).commitActs p.val g.toNat)) ∧
       ∀ a ∈ groupRegs p.val g.toNat, (u.commitNow p.val g.toNat).active a = u.reg a)))

/-- O13. A REGISTER_WRITE of one aligned word of any page stores into its register, COMMIT and IRQ_RAW aside, the bits that the register's
access gives (an RW register its mask's bits, a W1C register loses the bits written 1, an RO, WO or RC register keeps what it holds), then
does what a write of that register starts; a reserved offset takes nothing, a register that a replay feeds takes nothing while the replay
runs, and a locked bank counts the write as dropped. PLACE.OFFSET, shadowed, keeps its old value back for the coming hand-over where the
write lands in the hand-over cycle, and sets LATE. A write that covers some register only in part changes nothing and records BAD_ACCESS
on the page, or UNMAPPED outside every page. -/
def Obligations.RegisterWrites : Prop :=
  ∀ (s : State) (late : Bool), s.power.st ≠ 4 →
    let w := s.wakes wakeREGISTER
    (∀ (a : BitVec 24) (p : Nat) (v : Word), a.toNat % 4 = 0 → pageOf a.toNat = some p →
      let data : List (Option Byte) := (leBytes 4 v.toNat).map some
      (∀ (d : RegDef) (i : Nat), regDef? a.toNat = some (d, i) → a.toNat ≠ COMMIT p → a.toNat ≠ IRQ_RAW p →
        let u := w.storeWord a.toNat v.toNat late d
        ((w.replaying && regWriteCovered a.toNat) = false → w.bankLocked a.toNat = false →
          exec (.registerWrite a data late) s = .next (settle s (u.writeActs p a.toNat (w.reg a.toNat) v.toNat late).followLevels) ∧
          (risingFrom 0 w.regs = true →
            (d.acc = .rw → u.reg a.toNat = (w.reg a.toNat &&& (0xFFFFFFFF - d.mask)) ||| (v.toNat &&& d.mask)) ∧
            (d.acc = .w1c → u.reg a.toNat = w.reg a.toNat &&& (0xFFFFFFFF - (v.toNat &&& d.mask))) ∧
            (d.acc = .ro ∨ d.acc = .wo ∨ d.acc = .rc → u.reg a.toNat = w.reg a.toNat))) ∧
        ((w.replaying && regWriteCovered a.toNat) = true → exec (.registerWrite a data late) s = .next (settle s w.followLevels)) ∧
        ((w.replaying && regWriteCovered a.toNat) = false → w.bankLocked a.toNat = true →
          exec (.registerWrite a data late) s = .next (settle s (w.bump LOOP.BANK_WRITES_DROPPED 1).followLevels))) ∧
      (regDef? a.toNat = none → exec (.registerWrite a data late) s = .next (settle s w.followLevels)) ∧
      ∀ b : Byte, (writeWords a.toNat [some b]).any (·.2.isNone) = true) ∧
    (∀ v : Word, w.replaying = false →
      let data : List (Option Byte) := (leBytes 4 v.toNat).map some
      let u := w.setReg PLACE.OFFSET ((w.reg PLACE.OFFSET &&& (0xFFFFFFFF - 0xFFFFFF)) ||| (v.toNat &&& 0xFFFFFF))
      (late = false → exec (.registerWrite (BitVec.ofNat 24 PLACE.OFFSET) data late) s = .next (settle s u.followLevels)) ∧
      (late = true → keyGet w.heldBack PLACE.OFFSET = none →
        exec (.registerWrite (BitVec.ofNat 24 PLACE.OFFSET) data late) s = .next (settle s (State.followLevels
          { (u.setLate pPLACE) with heldBack := keySet w.heldBack PLACE.OFFSET (BitVec.ofNat 32 (w.reg PLACE.OFFSET)) })))) ∧
    (∀ (a : BitVec 24) (data : List (Option Byte)), (writeWords a.toNat data).any (·.2.isNone) = true →
      exec (.registerWrite a data late) s = .next (settle s (match pageOf a.toNat with
        | none => w.error pCHIP E.UNMAPPED []
        | some p => w.error p E.BAD_ACCESS [])))

/-- O14. UNMAPPED records UNMAPPED as an error of CHIP; a write there has no other effect, and a read returns four bytes of 0 (R25). As an
access to BAR0 it is a wake event. READ_CLEAR of one aligned word that holds a read-clear register returns the four bytes of its value and
leaves the register at its reset value, but for TILE.POSTINGS_PEAK and SPLIT.LOG_PEAK, which hold the most since the last read: they are
left at the postings in flight and at the log's length of now; no other register, no active copy, no memory, no job slot and nothing of
the ledger changes (R27; the wake of an access to BAR0 comes before). IRQ_RAW_CLEAR clears the bits that it writes 1 to, and asks for a
message again exactly where it cleared a bit and the source is still at level 1; HOLDOFF_EXPIRY ends the holdoff of a source, sends the
message held back if the source is still at level 1, and has no effect on a source outside holdoff (R41). -/
def Obligations.HostReads : Prop :=
  (∀ (s : State) (a : BitVec 24), s.power.st ≠ 4 → pageOf a.toNat = none →
     let u := (s.wakes wakeREGISTER).error pCHIP E.UNMAPPED []
     exec (.unmapped true a) s = .next (settle s u) ∧
     exec (.unmapped false a) s = .next (settle s { u with host := { u.host with data := [0, 0, 0, 0], ep := false } })) ∧
  (∀ (s : State) (a : BitVec 24) (p : Nat) (d : RegDef) (i : Nat), s.power.st ≠ 4 → a.toNat % 4 = 0 → pageOf a.toNat = some p →
     regDef? a.toNat = some (d, i) → d.acc = .rc →
     let w := s.wakes wakeREGISTER
     ∃ t, exec (.readClear a [true, true, true, true]) s = .next t ∧
       t.host.data = leBytes 4 (({ w with host := { w.host with data := [], ep := false } } : State).readWord a.toNat) ∧ t.host.ep = false ∧
       (a.toNat ≠ TILE.POSTINGS_PEAK → a.toNat ≠ SPLIT.LOG_PEAK → t.regs = (w.setReg a.toNat (resetOf a.toNat).toNat).regs) ∧
       (a.toNat = TILE.POSTINGS_PEAK → t.regs = (w.setReg a.toNat w.inFlight).regs) ∧
       (a.toNat = SPLIT.LOG_PEAK → t.regs = (w.setReg a.toNat w.split.log.length).regs) ∧
       t.act = w.act ∧ t.mem = w.mem ∧ t.slots = w.slots ∧ t.led = w.led) ∧
  (∀ (s : State) (p : Fin 60), s.power.st ≠ 4 →
     (∀ v : Word, let w := s.wakes wakeREGISTER
       let raw := w.reg (IRQ_RAW p.val)
       let u := w.setReg (IRQ_RAW p.val) (raw &&& (0xFFFFFFFF - v.toNat))
       ((raw &&& v.toNat) = 0 ∨ u.levelOf p.val = false → exec (.irqRawClear p v) s = .next (settle s u)) ∧
       ((raw &&& v.toNat) ≠ 0 → u.levelOf p.val = true → exec (.irqRawClear p v) s = .next (settle s (u.notify p.val)))) ∧
     (keyGet s.irq.holdoff p.val = none → exec (.holdoffExpiry p) s = .next (settle s s)) ∧
     (∀ held, keyGet s.irq.holdoff p.val = some held →
       let u : State := { s with irq := { s.irq with holdoff := keyErase s.irq.holdoff p.val } }
       (held = true → u.levelOf p.val = true → exec (.holdoffExpiry p) s = .next (settle s (u.notify p.val))) ∧
       (held = false ∨ u.levelOf p.val = false → exec (.holdoffExpiry p) s = .next (settle s u))))

/-- O15. SNAP, the command that a write of TIME.SNAP with ACT at 1 is, copies EPOCH, NS and FRAC into NOW_EPOCH, NOW_NS and NOW_FRAC and
changes nothing else; as an access to BAR0 it wakes the device first (R611). -/
def Obligations.TimeSnapshot : Prop :=
  ∀ (s : State), s.power.st ≠ 4 → s.time.epoch < 2 ^ 32 → s.time.ns < 2 ^ 32 → s.time.frac < 2 ^ 32 →
    let w := s.wakeEvent wakeREGISTER
    risingFrom 0 w.regs = true →
    let u := ((w.setReg TIME.NOW_EPOCH s.time.epoch).setReg TIME.NOW_NS s.time.ns).setReg TIME.NOW_FRAC s.time.frac
    exec .snap s = .next (settle s u) ∧ u.reg TIME.NOW_EPOCH = s.time.epoch ∧ u.reg TIME.NOW_NS = s.time.ns ∧
      u.reg TIME.NOW_FRAC = s.time.frac

/-- O16. While the time clock runs, a tick adds to EPOCH:NS:FRAC an amount between NOM - LIM and NOM + LIM and moves rem by the same
amount less the increment, whatever correction is in progress; a stopped time clock holds everything (R410, R412, R421, R617). An accepted
commit of TIME group 2, with CTRL.EN at 1: CORR 0 stops the slew; a positive CORR with STEP at 1, in a session whose step is unused, with
no job LEADING, WRITING or DRAINING and PC_CFG.SEND 0, steps the local time by CORR together with one tick's increment and uses the step;
any other request replaces rem by CORR and leaves the local time alone; while the time clock is stopped a request waits (the model's
choice, log 76); with CTRL.EN at 0 nothing of the time changes (R412, R417 to R420, R617). The commit wakes the device first from DOZE and
NAP (R611), which leaves the time as it is. -/
def Obligations.LocalTimeMoves : Prop :=
  (∀ (s : State), (s.power.stopped.contains 4 = true → s.ticks 1 = s) ∧
     (s.power.stopped.contains 4 = false → s.slewLo ≤ 0 → 0 ≤ s.slewHi → ∃ d : Nat, timeNom - s.timeLim ≤ d ∧ d ≤ timeNom + s.timeLim ∧ (s.ticks 1).time.now = (s.time.now + d) % 2 ^ 96 ∧
       (s.ticks 1).time.rem = s.time.rem - ((d : Int) - s.timeInc))) ∧
  (∀ (s : State) (late : Bool), s.power.st ≠ 4 → risingFrom 0 s.act = true →
     let corr := sInt 64 (s.reg TIME.CORR_LO + s.reg TIME.CORR_HI * 2 ^ 32)
     let steps := bit (s.reg TIME.CORR_MODE) 0 = true ∧ 0 < corr ∧ s.time.sessionOpen = true ∧ s.time.stepUsed = false ∧
       (∀ x ∈ s.slots, x.st ≠ .leading ∧ x.st ≠ .writing ∧ x.st ≠ .draining) ∧ bit (s.reg WEB.PC_CFG) 25 = false
     ∃ t, exec (.commitGroup 21 2 late) s = .next t ∧ t.mem = s.mem ∧ t.slots = s.slots ∧ t.pend = s.pend ∧
       (s.enabled pTIME = false → t.time = s.time) ∧
       (s.enabled pTIME = true → s.power.stopped.contains 4 = true → t.time = { s.time with
         requests := s.time.requests ++ [(s.reg TIME.CORR_LO + s.reg TIME.CORR_HI * 2 ^ 32, bit (s.reg TIME.CORR_MODE) 0)] }) ∧
       (s.enabled pTIME = true → s.power.stopped.contains 4 = false → corr = 0 → t.time.rem = 0 ∧ t.time.now = s.time.now ∧ t.time.stepUsed = s.time.stepUsed) ∧
       (s.enabled pTIME = true → s.power.stopped.contains 4 = false → steps → t.time.rem = 0 ∧
         t.time.now = (s.time.now + s.timeInc + corr.toNat * 2 ^ 16) % 2 ^ 96 ∧ t.time.stepUsed = true) ∧
       (s.enabled pTIME = true → s.power.stopped.contains 4 = false → ¬steps → t.time.rem = corr * 2 ^ 16 ∧ t.time.now = s.time.now ∧ t.time.stepUsed = s.time.stepUsed))

/-- O17. With no correction in progress, TIME_WRAP runs the clock to the first tick at or after the wrap, one epoch on, records WRAP with
the new EPOCH, raises IRQ_RAW.WRAP and changes nothing else; SLEW_DONE runs it until rem is 0; BEYOND_CLEAR runs it until rem is within
SLEW_BOUND, and clears BEYOND; while the time clock is stopped none of them moves it (R410, R414, R421, R422; that these commands run the
clock to their moment is the model's reading, log 50). END_SESSION closes the session and changes nothing else (outside DOZE and NAP, from
which it wakes the device first); MASTER_LOST of an open session records MASTER_LOST, counts it, raises IRQ_RAW.MASTER_LOST, closes the
session and sets rem to 0, which also clears BEYOND; with no session open it has no effect (R416, R425). -/
def Obligations.TimeEvents : Prop :=
  (∀ (s : State), s.power.st ≠ 4 →
     (s.power.stopped.contains 4 = true → ∀ c : Instr, c = .timeWrap ∨ c = .slewDone ∨ c = .beyondClear → exec c s = .next (settle s s)) ∧
     (s.power.stopped.contains 4 = false → s.time.ns < 2 ^ 32 → s.time.frac < 2 ^ 32 → 0 < s.timeInc → 0 ≤ s.slewHi → s.time.rem = 0 → s.time.beyond = false →
       let d := 2 ^ 64 - (s.time.ns * 2 ^ 32 + s.time.frac)
       let past := (s.timeInc - d % s.timeInc) % s.timeInc
       exec .timeWrap s = .next (settle s
         ((({ s with time := { s.time with epoch := (s.time.epoch + 1) % 2 ^ 32, ns := past / 2 ^ 32, frac := past % 2 ^ 32 } } : State).event
           pTIME V.WRAP [.f 4 ((s.time.epoch + 1) % 2 ^ 32)]).raise pTIME 2))) ∧
     (s.power.stopped.contains 4 = false → ((0 ≤ s.time.rem ∧ 0 < s.slewHi) ∨ (s.time.rem < 0 ∧ s.slewLo < 0)) → ∃ t, exec .slewDone s = .next t ∧ t.time.rem = 0 ∧
       t.mem = s.mem ∧ t.slots = s.slots ∧ t.act = s.act ∧ t.lineTime = s.lineTime) ∧
     (s.power.stopped.contains 4 = false → s.time.beyond = true → s.slewLo < 0 → 0 < s.slewHi → ∃ t, exec .beyondClear s = .next t ∧ t.time.beyond = false ∧
       t.time.rem.natAbs ≤ s.reg TIME.SLEW_BOUND * 2 ^ 32 ∧ t.mem = s.mem ∧ t.slots = s.slots ∧ t.act = s.act ∧ t.lineTime = s.lineTime)) ∧
  (∀ (s : State), s.power.st ≠ 4 →
     (s.power.st < 2 → exec .endSession s = .next (settle s { s with time := { s.time with sessionOpen := false } })) ∧
     (s.time.sessionOpen = false → exec .masterLost s = .next (settle s s)) ∧
     (s.time.sessionOpen = true → s.time.beyond = false → exec .masterLost s = .next (settle s
       { (((s.error pTIME E.MASTER_LOST []).bump TIME.MASTER_LOSSES 1).raise pTIME 5) with
           time := { s.time with sessionOpen := false, rem := 0 } })) ∧
     (s.time.sessionOpen = true → s.time.beyond = true → ∃ t, exec .masterLost s = .next t ∧
       t.time = { s.time with sessionOpen := false, rem := 0, beyond := false } ∧ t.mem = s.mem ∧ t.slots = s.slots))

/-- O18. ETH_RX_FRAME wakes the device, and lane 24's receiver adapts on it while the lane is trained; an elastic buffer that over- or
underflowed before the frame is counted and signalled. Then, while the MAC is off, it has no effect; a frame with a bad FCS is counted and
dropped; a Sync of the domain opens a session; a frame that is no Sync and not addressed here has no effect; a postcard frame is counted
and waits in the inbox as kind 3 of side 2, the model's form of what WEB takes (log 40); any other addressed frame goes, behind its
receive header, into the first free buffer of the ring that receives, or is counted as dropped where there is none (R365, R382, R424,
R428, R432, R611; the frame comes without preamble and with the verdict on its FCS as an operand, log 51). ETH_TX_FRAME with the MAC on
sends the LEN bytes behind the header of the oldest buffer and counts the frame; with TS_REQ at 1 it also queues the timestamp with its
TAG, or, with 64 waiting, records and counts TS_QUEUE_FULL and raises IRQ_RAW.TS_FULL; TXTS_TAG_READ, outside DOZE and NAP, returns the
head entry's tag, with VALID 0 for an empty queue, and removes the entry; ETH_LINK_CHANGE moves the link between ALIGN and UP, raises LINK
where it changes, and does nothing in DOWN (R427, R429 to R431). -/
def Obligations.EthernetFrames : Prop :=
  (∀ (s : State) (f : List Byte) (slip : Bool), s.power.st ≠ 4 →
     let bare (d : Desc) : Desc := { d with sent := 0, blocks := 0 }
     let v := ((s.wakeEvent wakeNETWORK).ethSlip slip).ethAdapt
     ((s.laneOf 24).tstate = 6 → risingFrom 0 s.regs = true → (s.ethSlip true).reg (LANE.ELASTIC_DROPS 24) = min (s.reg (LANE.ELASTIC_DROPS 24) + 1) 0xFFFFFFFF ∧
       bit ((s.ethSlip true).reg (IRQ_RAW pLANE)) 4 = true) ∧
     ((s.laneOf 24).tstate ≠ 6 → s.power.st < 2 → v = s) ∧
     (v.macOn = false → ∀ ok, exec (.ethRxFrame f ok slip) s = .next (settle s v)) ∧
     (v.macOn = true → exec (.ethRxFrame f false slip) s = .next (settle s (v.bump ETH.RX_FCS_BAD 1))) ∧
     (v.macOn = true → isSync f (bits (v.reg TIME.MASTER_CFG) 7 0) = true → v.enabled pTIME = true → v.time.sessionOpen = false →
       ∃ t, exec (.ethRxFrame f true slip) s = .next t ∧ t.time = { v.time with sessionOpen := true, stepUsed := false, sessionSyncs := 1 } ∧
         t.mem = v.mem ∧ t.slots = v.slots) ∧
     (v.macOn = true → isSync f (bits (v.reg TIME.MASTER_CFG) 7 0) = false →
       (v.addressed f = false → exec (.ethRxFrame f true slip) s = .next (settle s v)) ∧
       (v.addressed f = true → isPostcardFrame f = true → exec (.ethRxFrame f true slip) s = .next (settle s
         (({ v with peers := { v.peers with inbox := v.peers.inbox ++ [(3, 2, (f.drop 22).take 32)] } } : State).bump ETH.PC_TAKEN 1))) ∧
       (v.addressed f = true → isPostcardFrame f = false →
         (v.rxRing = none → exec (.ethRxFrame f true slip) s = .next (settle s (v.bump ETH.RX_DROPPED 1))) ∧
         (∀ (n : Nat) (d : Desc) (rest : List Desc), v.rxRing = some n → (v.ringOf n).taken = d :: rest →
           d.bind = 4 → d.fault = false → d.poisoned = false → d.frame = none → 16 + f.length ≤ d.len → f.length ≤ 1518 →
           ∃ t, exec (.ethRxFrame f true slip) s = .next t ∧
             (t.ringOf n).taken.map bare = (({ d with frame := some (v.rxHeader f false ++ f) } : Desc) :: rest).map bare ∧
             (v.rxHeader f false).length = 16 ∧
             (∀ i, i ≠ n → (t.ringOf i).taken.map bare = (v.ringOf i).taken.map bare) ∧ t.mem = v.mem ∧
             t.time = v.time ∧ t.eth = v.eth)))) ∧
  (∀ (s : State), s.power.st ≠ 4 →
     (s.eth.txQueue = [] → exec .ethTxFrame s = .next (settle s s)) ∧
     (∀ b rest, s.eth.txQueue = b :: rest → s.macOn = true →
       let sent := (({ s with eth := { s.eth with txQueue := rest } } : State).emit (.ethFrame ((b.drop 16).take (fld b 0 2)))).bump
         ETH.TX_FRAMES 1
       (bit (fld b 2 1) 0 = false → exec .ethTxFrame s = .next (settle s sent)) ∧
       (bit (fld b 2 1) 0 = true → s.eth.txts.length < 64 → exec .ethTxFrame s = .next (settle s
         { sent with eth := { s.eth with txQueue := rest, txts := s.eth.txts ++
             [{ ns := s.time.ns, frac := s.time.frac / 2 ^ 16, epoch := s.time.epoch % 2 ^ 16, tag := fld b 4 2 }] } })) ∧
       (bit (fld b 2 1) 0 = true → 64 ≤ s.eth.txts.length → exec .ethTxFrame s = .next (settle s
         (((sent.error pETH E.TS_QUEUE_FULL []).bump ETH.TS_DROPPED 1).raise pETH 3)))) ∧
     (s.power.st < 2 → s.eth.txts = [] → exec .txtsTagRead s = .next (settle s { s with host := { s.host with data := leBytes 4 0, ep := false } })) ∧
     (∀ e rest, s.power.st < 2 → s.eth.txts = e :: rest → exec .txtsTagRead s = .next (settle s
       { s with host := { s.host with data := leBytes 4 (2 ^ 31 + e.tag), ep := false }, eth := { s.eth with txts := rest } })) ∧
     (∀ up, s.eth.link = 0 → exec (.ethLinkChange up) s = .next (settle s s)) ∧
     (∀ up, s.eth.link ≠ 0 → s.eth.link ≠ (if up then 2 else 1) → exec (.ethLinkChange up) s = .next (settle s
       (({ s with eth := { s.eth with link := if up then 2 else 1 } } : State).raise pETH 2))))

/-- O19. The wake of R611 comes first; a read that the memory serves returns the bytes that stand at its addresses; a write stores its
bytes: each byte of it reads back, every other byte of HBM and scratch reads as before, and memory keeps its canonical form, through the
map of the scratch banks and while one of them is being retired; a write into the delay ring or the beam table while SPLIT.CTRL.EN is 1 is
dropped and counted; an access not wholly inside HBM or scratch, or with HOST.CTRL.EN at 0, is counted in BAR2_UNMAPPED and recorded
UNMAPPED, a read of it returns zeros and a write stores nothing; HBM requests wait while the controller serves none (R24, R199, R481,
R500, R511, R512, R520, R535; that an access partly inside is unmapped as a whole is the model's reading, log 16). A scratch read through
BAR2 of an uncorrectable word is recorded ECC_UNCORRECTABLE with its master (the DMA) and address, counted in SCR.UNCORR, kept in
UNCORR_LAST, and completes with EP and with data that nothing constrains; so does a read of a word that has kept its double-bit error; a
corrected read returns the stored bytes and counts in CORR of the bank that serves it; a scratch word lost to port A is recorded with both
masters and its address, counted in LOST_WRITE, and keeps its bytes, as does every byte outside the write; an HBM read that the stack
corrected returns the stored bytes and counts in CORR_READS, and a poisoned one is recorded, counted in POISONS and BAR2_POISONED, and
completes with EP (R495, R496, R516 to R518, R536; the data is free, log 3). -/
def Obligations.DeviceMemory : Prop :=
  ((∀ (s : State) (o : BitVec 36), s.power.st ≠ 4 →
     let w := s.wakeEvent 1
     (∀ n, inScratch o.toNat n = true → inHbm o.toNat n = false → s.enabled pHOST = true → s.badAt o.toNat n = [] →
       exec (.bar2Access o (.read n) {}) s = .next (settle s { w with host := { s.host with data := s.readMem o.toNat n, ep := false } })) ∧
     (∀ bs, inScratch o.toNat bs.length = true → inHbm o.toNat bs.length = false → s.enabled pHOST = true →
       (s.protects o.toNat bs.length = true → exec (.bar2Access o (.write bs) {}) s = .next (settle s (w.bump SPLIT.PROTECTED_WRITES 1))) ∧
       (s.protects o.toNat bs.length = false → s.scr.bad = [] → exec (.bar2Access o (.write bs) {}) s = .next (settle s (w.writeMem o.toNat bs)))) ∧
     (∀ n, inHbm o.toNat n = true → s.enabled pHOST = true → s.hbm.waiting = [] → s.hbmServes o.toNat n = true →
       ∃ t, exec (.bar2Access o (.read n) {}) s = .next t ∧ t.host.data = s.readMem o.toNat n ∧ t.host.ep = false ∧ t.mem = s.mem ∧
         t.slots = s.slots ∧ t.scr = s.scr ∧ t.act = s.act) ∧
     (∀ bs, inHbm o.toNat bs.length = true → s.enabled pHOST = true → s.hbm.waiting = [] → s.hbmServes o.toNat bs.length = true →
       ∃ t, exec (.bar2Access o (.write bs) {}) s = .next t ∧ t.mem = (s.writeMem o.toNat bs).mem ∧ t.host = s.host ∧ t.slots = s.slots ∧
         t.scr = s.scr ∧ t.act = s.act) ∧
     (∀ op ev, inHbm o.toNat (bar2Size op) = true → s.enabled pHOST = true → s.hbm.waiting = [] → s.hbmServes o.toNat (bar2Size op) = false →
       exec (.bar2Access o op ev) s = .next (settle s { w with hbm := { w.hbm with waiting := [(o.toNat, op, ev)] } })) ∧
     (∀ n ev, s.enabled pHOST = false ∨ mapped o.toNat n = false → exec (.bar2Access o (.read n) ev) s = .next (settle s
       { ((w.bump HOST.BAR2_UNMAPPED 1).error pHOST E.UNMAPPED []) with host := { s.host with data := List.replicate n 0, ep := false } })) ∧
     (∀ bs ev, s.enabled pHOST = false ∨ mapped o.toNat bs.length = false →
       exec (.bar2Access o (.write bs) ev) s = .next (settle s ((w.bump HOST.BAR2_UNMAPPED 1).error pHOST E.UNMAPPED [])))) ∧
   (∀ (s : State) (a : Nat) (bs : List Byte), memWf s.mem = true → banksApart s.scr = true → mapped a bs.length = true →
     memWf (s.writeMem a bs).mem = true ∧
     (∀ (k : Nat) (h : k < bs.length), (s.writeMem a bs).devByte (a + k) = bs[k]) ∧
     (∀ x, x < a ∨ a + bs.length ≤ x → (s.writeMem a bs).devByte x = s.devByte x) ∧
     (∀ k < bs.length, (s.readMem a bs.length).getD k 0 = s.devByte (a + k)))) ∧
  (∀ (s : State) (o : BitVec 36), s.power.st ≠ 4 → s.enabled pHOST = true → (s.waitingAt pSCR).length < 15 →
     let recorded (t : State) (code : Nat) (flds : List Fld) : Prop := ∃ r ∈ t.waitingAt pSCR, r.code = code ∧ r.flds = flds
     (∀ n (x : BitVec 25), inScratch o.toNat n = true → inHbm o.toNat n = false → s.badAt o.toNat n = [] → risingFrom 0 s.regs = true →
       ∃ t, exec (.bar2Access o (.read n) { faults := [.uncorrectable x.toNat] }) s = .next t ∧ t.host.ep = true ∧
         t.host.data.length = n ∧ t.mem = s.mem ∧ bit (t.reg (IRQ_RAW pSCR)) 2 = true ∧
         t.reg SCR.UNCORR = min (s.reg SCR.UNCORR + 1) 0xFFFFFFFF ∧ t.reg SCR.UNCORR_LAST = x.toNat ∧
         recorded t E.ECC_UNCORRECTABLE [.f 1 4, .f 5 (scratchBase + x.toNat)]) ∧
     (∀ n x, inScratch o.toNat n = true → inHbm o.toNat n = false → s.badAt o.toNat n = [x] →
       ∃ t, exec (.bar2Access o (.read n) {}) s = .next t ∧ t.host.ep = true ∧ t.host.data.length = n ∧ t.mem = s.mem ∧
         t.reg SCR.UNCORR = min (s.reg SCR.UNCORR + 1) 0xFFFFFFFF ∧ recorded t E.ECC_UNCORRECTABLE [.f 1 4, .f 5 (scratchBase + x)]) ∧
     (∀ n (x : BitVec 25), inScratch o.toNat n = true → inHbm o.toNat n = false → s.badAt o.toNat n = [] →
       ∃ t, exec (.bar2Access o (.read n) { single := [x.toNat] }) s = .next t ∧ t.host.ep = false ∧
         t.host.data = s.readMem o.toNat n ∧ t.mem = s.mem ∧
         t.scr = { s.scr with corr := modAt s.scr.corr (s.scr.readBank (scrBank x.toNat) (scrWord x.toNat)) fun n => min (n + 1) 0xFFFF }) ∧
     (∀ bs (x : BitVec 25) j, inScratch o.toNat bs.length = true → inHbm o.toNat bs.length = false → s.protects o.toNat bs.length = false →
       s.scr.bad = [] → memWf s.mem = true → banksApart s.scr = true →
       ∃ t, exec (.bar2Access o (.write bs) { faults := [.writeLost x.toNat j] }) s = .next t ∧ bit (t.reg (IRQ_RAW pSCR)) 5 = true ∧
         t.reg SCR.LOST_WRITE = min (s.reg SCR.LOST_WRITE + 1) 0xFFFFFFFF ∧
         recorded t E.WRITE_LOST [.f 1 (if j then 1 else 0), .f 1 4, .f 5 (scratchBase + x.toNat)] ∧
         ∀ a, (a < o.toNat ∨ o.toNat + bs.length ≤ a ∨ (scratchBase + x.toNat / 8 * 8 ≤ a ∧ a < scratchBase + x.toNat / 8 * 8 + 8)) →
           t.devByte a = s.devByte a) ∧
     (∀ n, inHbm o.toNat n = true → s.hbm.waiting = [] → s.hbmServes o.toNat n = true →
       (∃ t, exec (.bar2Access o (.read n) { corrected := 1 }) s = .next t ∧ t.host.ep = false ∧ t.host.data = s.readMem o.toNat n ∧
         t.mem = s.mem ∧ t.reg HBM.CORR_READS = min (s.reg HBM.CORR_READS + 1) 0xFFFFFFFF) ∧
       (∀ x, (∀ d ∈ s.hbm.poisonDue, d.1 ≠ 8) → ∃ t, exec (.bar2Access o (.read n) { faults := [.poisoned x false] }) s = .next t ∧
         t.host.ep = true ∧ t.host.data.length = n ∧ t.mem = s.mem ∧
         t.reg HOST.BAR2_POISONED = min (s.reg HOST.BAR2_POISONED + 1) 0xFFFFFFFF ∧ t.reg HBM.POISONS = min (s.reg HBM.POISONS + 1) 0xFFFFFFFF ∧
         bit (t.reg (IRQ_RAW pHBM)) 3 = true)))

/-- O20. At an activate of a row, the row's count rises by 1 where the table holds it, the row enters with 1 where an entry of the 8 is
free, and else takes the place and the count plus 1 of the entry with the smallest count, the lowest on ties; a count that reaches
THRESHOLD, of a row held, entered or put in another's place, becomes 0 and counts a neighbour refresh, and the other entries stay; the
table never holds more than 8 entries, and no other bank's table changes (R491; that the threshold in force is the active ACT_CFG is
R508). HBM_REFRESH clears the activate tables of the stack's 16 channels and no other; HBM_TEMP_READ keeps the temperature, makes the
stack hot at HOT and no longer hot below HOT - HYST, and changes nothing else but the causes HOT and CRIT; a first PARITY_REPLAY records
and counts PARITY_REPLAY and issues the latest commands of the retry buffer again in their order, each with its activate, the fourth alert
of the same commands PARITY_FAIL, with its requests poisoned; WRITE_DRAIN_AGE empties an unempty write queue to WR_LOW and counts the
drain (R487 to R494). (Register accesses are said outside DOZE and NAP, from which they wake the device first, O7.) SWEEP_START with START
at 1 starts a sweep, or, with a job active or another of these operations running, ends at once with DONE, RESULT REFUSED and the
interrupt; SWEEP_DONE ends it with DONE and RESULT OK and each step's count in SWEEP_ERR, and overwrites only the unit at SWEEP_ADDR;
RATE_DONE makes the committed rate the current one; REPAIR starts a repair, or is refused and recorded with a job active; REPAIR_DONE ends
it with its result, record and interrupt, and stores only into the repaired row, when OK, where REPAIR_SEL names a bank that exists, as
every commit does (R498 to R507). -/
def Obligations.HbmUpkeep : Prop :=
  (∀ (s : State) (ch pc bank row : Nat),
     let k := bankKey ch pc bank
     let t := (keyGet s.hbm.tables k).getD []
     let u := s.activateRow ch pc bank row
     let t' := (keyGet u.hbm.tables k).getD []
     let T := bits (s.active HBM.ACT_CFG) 31 16
     let refreshed := (s.bump HBM.NEIGHBOUR_REFRESHES 1).regs
     (t.length ≤ 8 → t'.length ≤ 8) ∧
     ((t.map Prod.fst).Nodup → ∀ c, (row, c) ∈ t → c + 1 < T → (row, c + 1) ∈ t' ∧ u.regs = s.regs) ∧
     ((∀ c, (row, c) ∉ t) → t.length < 8 → 1 < T → t' = t ++ [(row, 1)] ∧ u.regs = s.regs) ∧
     ((∀ c, (row, c) ∉ t) → t.length = 8 → (t.getD (minEntry t) (0, 0)).2 + 1 < T →
       t' = (modAt t (minEntry t) fun e => (row, e.2 + 1)) ∧ u.regs = s.regs) ∧
     ((t.map Prod.fst).Nodup → ∀ c, (row, c) ∈ t → T ≤ c + 1 →
       (row, 0) ∈ t' ∧ u.regs = refreshed ∧ ∀ e, e.1 ≠ row → (e ∈ t' ↔ e ∈ t)) ∧
     ((∀ c, (row, c) ∉ t) → t.length < 8 → T ≤ 1 → t' = t ++ [(row, 0)] ∧ u.regs = refreshed) ∧
     ((∀ c, (row, c) ∉ t) → t.length = 8 → T ≤ (t.getD (minEntry t) (0, 0)).2 + 1 →
       t' = (modAt t (minEntry t) fun _ => (row, 0)) ∧ u.regs = refreshed) ∧
     (∀ j, j ≠ k → keyGet u.hbm.tables j = keyGet s.hbm.tables j)) ∧
  (∀ (s : State), s.power.st ≠ 4 →
     (∀ k : Fin 2, exec (.hbmRefresh k) s = .next (settle s
       { s with hbm := { s.hbm with tables := s.hbm.tables.filter fun t => t.1 / (2 * 48) / 16 != k.val } })) ∧
     (∀ (k : Fin 2) (c : BitVec 8), s.hbm.temp.length = 2 → s.hbm.hot.length = 2 →
       ∃ t, exec (.hbmTempRead k c) s = .next t ∧ t.hbm.temp = s.hbm.temp.set k c.toNat ∧
         (s.hotLimit ≤ sInt 8 c.toNat → t.hbm.hot.getD k false = true) ∧
         (sInt 8 c.toNat < s.hotLimit - s.hotHyst → t.hbm.hot.getD k true = false) ∧
         (s.hotLimit - s.hotHyst ≤ sInt 8 c.toNat → sInt 8 c.toNat < s.hotLimit → t.hbm.hot.getD k false = s.hbm.hot.getD k false) ∧
         (s.hotLimit ≤ sInt 8 c.toNat → s.hbm.hot.getD k false = false → bit (t.reg (IRQ_RAW pHBM)) 4 = true) ∧
         t.mem = s.mem ∧ t.hbm.tables = s.hbm.tables) ∧
     (∀ (c : Fin 32) n reqs, exec (.parityReplay c false n reqs) s = .next (settle s
       ((((keyGet s.hbm.retry c.val).getD []).take n).reverse.foldl State.activateAt
         (((({ s with hbm := { s.hbm with replays := keySet s.hbm.replays c 1 } } : State).error pHBM E.PARITY_REPLAY []).bump
           HBM.PARITY_REPLAYS 1).raise pHBM 2)))) ∧
     (∀ (c : Fin 32) n reqs, keyGet s.hbm.replays c.val = some 3 → ∃ t, exec (.parityReplay c true n reqs) s = .next t ∧ t.mem = s.mem ∧
       t.hbm = { s.hbm with replays := keyErase s.hbm.replays c, poisonDue := s.hbm.poisonDue ++ reqs.map fun r => (r.1.val, r.2) } ∧
       bit (t.reg (IRQ_RAW pHBM)) 2 = true) ∧
     (∀ (c : Fin 32) (p : Fin 2), (keyGet s.hbm.writes (c.val * 2 + p.val)).getD 0 = 0 → exec (.writeDrainAge c p) s = .next (settle s s)) ∧
     (∀ (c : Fin 32) (p : Fin 2) n, keyGet s.hbm.writes (c.val * 2 + p.val) = some n → n ≠ 0 → exec (.writeDrainAge c p) s = .next (settle s
       (({ s with hbm := { s.hbm with writes := keySet s.hbm.writes (c.val * 2 + p.val) (min n s.wrLow) } } : State).bump HBM.WR_DRAINS 1)))) ∧
  (∀ (s : State), s.power.st ≠ 4 →
     (∀ c : Word, let ctrl := putField (c.toNat &&& sweepCtrlMask) 31 31 0
       let u := s.setReg HBM.SWEEP_CTRL ctrl
       (s.power.st < 2 → bit c.toNat 31 = false → exec (.sweepStart c) s = .next (settle s u)) ∧
       (s.power.st < 2 → bit c.toNat 31 = true → s.jobsActive = true ∨ s.hbm.sweep.isSome = true ∨ s.hbm.rateBusy = true ∨ s.hbm.repair.isSome = true →
         exec (.sweepStart c) s = .next (settle s ((u.setReg HBM.SWEEP_STATUS (2 ^ 31 + 2)).raise pHBM 7))) ∧
       (s.power.st < 2 → bit c.toNat 31 = true → u.sweepRefused ctrl = false → sweepCount (s.reg HBM.SWEEP_RANGE) ≠ 0 →
         exec (.sweepStart c) s = .next (settle s { u with hbm := { s.hbm with sweep := some (ctrl, s.reg HBM.SWEEP_RANGE, s.sweepAddr) } }))) ∧
     (∀ errs, s.hbm.sweep = none → exec (.sweepDone errs) s = .next (settle s s)) ∧
     (∀ errs c r a, s.hbm.sweep = some (c, r, a) → ∃ t, exec (.sweepDone errs) s = .next t ∧ t.hbm.sweep = none ∧
       t.reg HBM.SWEEP_STATUS = 2 ^ 31 ∧ bit (t.reg (IRQ_RAW pHBM)) 7 = true ∧
       (risingFrom 0 s.regs = true → ∀ i, i < sweepCount r → t.reg (HBM.SWEEP_ERR i) = errs.getD i 0 % 2 ^ 32) ∧
       (a < scratchBase → ∀ x, (x < a / 256 * 256 ∨ a / 256 * 256 + 256 ≤ x) → t.devByte x = s.devByte x)) ∧
     (s.hbm.rateBusy = false → exec .rateDone s = .next (settle s s)) ∧
     (s.hbm.rateBusy = true → s.hbm.waiting = [] → ∃ t, exec .rateDone s = .next t ∧ t.hbm.rateBusy = false ∧
       t.hbm.rateNow = bits (s.active HBM.RATE) 0 0 ∧ bit (t.reg (IRQ_RAW pHBM)) 6 = true ∧ t.mem = s.mem) ∧
     (let sel := s.active HBM.REPAIR_SEL;
       (s.jobsActive = false → s.hbm.sweep = none → s.hbm.rateBusy = false → s.hbm.repair = none → s.hbm.low ≠ 2 → s.power.st < 2 →
         exec .repair s = .next (settle s { s with hbm := { s.hbm with repair := some sel } })) ∧
       (s.jobsActive = true → s.power.st < 2 → exec .repair s = .next (settle s
         (((s.setReg HBM.REPAIR_STATUS (2 ^ 31 + 2)).raise pHBM 8).event pHBM V.REPAIR [.f 4 sel, .f 1 2])))) ∧
     (∀ o, s.hbm.repair = none → exec (.repairDone o) s = .next (settle s s)) ∧
     (∀ o sel, s.hbm.repair = some sel → s.hbm.waiting = [] → ∃ t, exec (.repairDone o) s = .next t ∧ t.hbm.repair = none ∧
       t.reg HBM.REPAIR_STATUS = 2 ^ 31 + repairCode o ∧ bit (t.reg (IRQ_RAW pHBM)) 8 = true ∧
       (bits sel 21 16 < 48 → ∀ x, (o ≠ .ok ∨ scratchBase ≤ x ∨ hbmCh x ≠ bits sel 28 24 ∨ hbmPc x ≠ bits sel 30 30 ∨ hbmBank x ≠ bits sel 21 16 ∨
           hbmRow x ≠ bits sel 13 0) → t.devByte x = s.devByte x)))

/-- O21. With SCR.CTRL.EN at 1 and no retirement running, RETIRE_CMD (outside DOZE and NAP, from which it wakes the device first, O7), and
RETIRE_THRESHOLD where the count has reached THRESHOLD, start the copy into the lowest free reserve, or record NO_RESERVE_BANK where none
is free; with one running another bank waits, and the one being retired needs nothing; with EN at 0 nothing happens; while COPY goes on
every byte of scratch reads as before; RETIRED copies what is left, puts the reserve into the map, the old bank out of use, counts,
records and signals it, every byte of scratch reads after it as before it, a word of the old bank not copied yet that showed a double-bit
error shows it in the reserve, and a word that COPY is said to have found uncorrectable is signalled; ECC_CORRECTED counts a corrected
read for the bank that serves the address, and at the end of its interval closes the bank's tally (R517, R519 to R524). -/
def Obligations.ScratchRetirement : Prop :=
  ∀ (s : State), s.power.st ≠ 4 →
    let started (b r : Nat) : State := { s with scr := { s.scr with
      retiring := some { bank := b, old := s.scr.map.getD b 0, reserve := r }, copyPos := 0, state := s.scr.state.set r 2 } }
    (∀ b : Fin 64, s.enabled pSCR = false → s.power.st < 2 → exec (.retireCmd b) s = .next (settle s s)) ∧
    (∀ b : Fin 64, s.enabled pSCR = true → s.power.st < 2 →
      (s.scr.retiring = none → ∀ r < 68, s.scr.state.getD r 0 = 1 → (∀ q < r, s.scr.state.getD q 0 ≠ 1) →
        exec (.retireCmd b) s = .next (settle s (started b r))) ∧
      (s.scr.retiring = none → (∀ q < 68, s.scr.state.getD q 0 ≠ 1) → s.scr.noReserve = [] → exec (.retireCmd b) s = .next (settle s
        ((({ s with scr := { s.scr with noReserve := [s.scr.map.getD b 0] } } : State).error pSCR E.NO_RESERVE_BANK []).raise pSCR 4))) ∧
      (∀ x, s.scr.retiring = some x → x.bank ≠ b.val → s.scr.queue = [] → exec (.retireCmd b) s = .next (settle s
        { s with scr := { s.scr with queue := [b.val] } })) ∧
      (∀ x, s.scr.retiring = some x → x.bank = b.val → exec (.retireCmd b) s = .next (settle s s))) ∧
    (∀ p : Fin 68, s.enabled pSCR = true → bit (s.reg SCR.RETIRE_CFG) 31 = true →
      (max 1 (bits (s.reg SCR.RETIRE_CFG) 15 0) ≤ s.scr.corr.getD p 0 → s.scr.retiring = none →
        ∀ b r, s.scr.serves p.val = some b → r < 68 → s.scr.state.getD r 0 = 1 → (∀ q < r, s.scr.state.getD q 0 ≠ 1) →
          exec (.retireThreshold p) s = .next (settle s (started b r))) ∧
      (s.scr.corr.getD p 0 < max 1 (bits (s.reg SCR.RETIRE_CFG) 15 0) → exec (.retireThreshold p) s = .next (settle s s))) ∧
    (memWf s.mem = true → banksApart s.scr = true → s.scr.copyPos < 65536 → memWf s.copyStep.mem = true ∧ ∀ a, s.copyStep.devByte a = s.devByte a) ∧
    (∀ bad, s.scr.retiring = none → exec (.retired bad) s = .next (settle s s)) ∧
    (∀ r bad, s.scr.retiring = some r → s.scr.queue = [] → ∃ t, exec (.retired bad) s = .next t ∧ t.scr.retiring = none ∧
      t.scr.map = s.scr.map.set r.bank r.reserve ∧ t.scr.state = (s.scr.state.set r.reserve 0).set r.old 3 ∧ t.slots = s.slots ∧
      t.reg SCR.RETIREMENTS = min (s.reg SCR.RETIREMENTS + 1) 0xFFFFFFFF ∧ bit (t.reg (IRQ_RAW pSCR)) 3 = true ∧
      (memWf s.mem = true → banksApart s.scr = true → s.scr.copyPos ≤ 65536 → ∀ a, t.devByte a = s.devByte a) ∧
      (∀ w < 65536, s.scr.copyPos ≤ w → s.scr.bad.contains (r.old * 65536 + w) = true → t.scr.bad.contains (r.reserve * 65536 + w) = true) ∧
      (s.scr.bad = [] → bad = [] → (s.waitingAt pSCR).length < 16 →
        ∃ q ∈ t.waitingAt pSCR, q.code = V.RETIRED ∧ q.flds = [.f 1 r.old, .f 1 r.reserve]) ∧
      (∀ x ∈ bad, s.scr.bad.contains (r.old * 65536 + scrWord x) = false → bit (t.reg (IRQ_RAW pSCR)) 2 = true)) ∧
    (∀ x : BitVec 25, let p := s.scr.readBank (scrBank x.toNat) (scrWord x.toNat)
      exec (.eccCorrected (.read x)) s = .next (settle s
      (({ s with scr := { s.scr with corr := modAt s.scr.corr p fun n => min (n + 1) 0xFFFF } } : State).report pSCR E.ECC_CORRECTED p 1
        [.f 1 p] [.f 1 p] (some pSCR) none false))) ∧
    (∀ p : Fin 68, (s.tally? E.ECC_CORRECTED p = none → exec (.eccCorrected (.intervalEnds p)) s = .next (settle s s)) ∧
      (∀ t, s.tally? E.ECC_CORRECTED p = some t → exec (.eccCorrected (.intervalEnds p)) s = .next (settle s (s.closeTally t))))

/-- O22. (Register accesses are said outside DOZE and NAP, from which they wake the device first, O7.) Outside SCRAPPED, KEY_LOAD copies
the key stage into the slot, marks it valid and clears the stage, and KEY_ERASE clears the slot and its mark; in SCRAPPED both are
refused; a window access to the host secrets with EN at 1 and no wipe running reads them outside FIELD and SCRAPPED and writes them
outside SCRAPPED, a read in FIELD is refused and returns 0, and a key slot reads 0 and takes no write; a word that shows a double-bit
error is recorded and counted as one of scratch, gives a read 4 bytes that nothing constrains, and takes no part write; a refusal is
counted, and recorded and signalled once for a run; WIPE_CMD starts a wipe of cause HOST; WIPED clears the whole vault, counts, records
and signals it (R526 to R529; what a copy of an uncorrectable key word leaves is log 76, an uncorrectable window read log 3). -/
def Obligations.VaultRules : Prop :=
  ∀ (s : State), s.power.st ≠ 4 →
    let refused (u : State) : State := ((({ (u.bump VAULT.REFUSED 1) with vault := { u.vault with lockedRun := true } } : State).error pVAULT
      E.VAULT_LOCKED []).raise pVAULT 3)
    let w := s.reg VAULT.WIN_ADDR
    let a := 4 * bits w 17 2
    let stepped (u : State) : State := if bit w 31 then u.setReg VAULT.WIN_ADDR (putField w 17 2 (bits w 17 2 + 1)) else u
    let v := s.vault
    (∀ k : Fin 16, s.life.st ≠ 4 → s.power.st < 2 →
      exec (.keyLoad k) s = .next (settle s { s with vault := { v with
        mem := memZero (memWrite v.mem (0x100 + 32 * k.val) (memRead v.mem 0 32)) 0 32, valid := v.valid ||| 2 ^ k.val
        bad := badAfterKey v.bad k true, lockedRun := false } }) ∧
      exec (.keyErase k) s = .next (settle s { s with vault := { v with
        mem := memZero v.mem (0x100 + 32 * k.val) 32, valid := putBit v.valid k false, bad := badAfterKey v.bad k false, lockedRun := false } })) ∧
    (∀ k : Fin 16, s.life.st = 4 → s.power.st < 2 → v.lockedRun = false →
      exec (.keyLoad k) s = .next (settle s (refused s)) ∧ exec (.keyErase k) s = .next (settle s (refused s))) ∧
    (s.enabled pVAULT = true → v.wiping = none → v.lockedRun = false → s.power.st < 2 →
      (∀ x : Word, 0x400 ≤ a → s.life.st ≠ 4 → v.bad.contains (a / 8) = false → exec (.vaultWindowAccess (some x) false) s = .next (settle s
        (stepped { s with vault := { v with mem := memWrite v.mem a (leBytes 4 x.toNat) } }))) ∧
      (0x400 ≤ a → s.life.st ≠ 2 → s.life.st ≠ 4 → v.bad.contains (a / 8) = false → exec (.vaultWindowAccess none false) s = .next (settle s
        (stepped { s with host := { s.host with data := leBytes 4 (leNat (memRead v.mem a 4)), ep := false } }))) ∧
      (∀ x : Word, 0x400 ≤ a → s.life.st ≠ 4 → ∃ t, exec (.vaultWindowAccess (some x) true) s = .next t ∧ t.vault.mem = v.mem ∧
        t.vault.bad.contains (a / 8) = true ∧ t.reg SCR.UNCORR = min (s.reg SCR.UNCORR + 1) 0xFFFFFFFF) ∧
      (0x400 ≤ a → s.life.st ≠ 2 → s.life.st ≠ 4 → ∃ t, exec (.vaultWindowAccess none true) s = .next t ∧ t.vault.mem = v.mem ∧
        t.host.data.length = 4 ∧ t.reg SCR.UNCORR = min (s.reg SCR.UNCORR + 1) 0xFFFFFFFF) ∧
      (∀ d, 0x400 ≤ a → s.life.st = 2 → exec (.vaultWindowAccess none d) s = .next (settle s
        (stepped { (refused s) with host := { s.host with data := leBytes 4 0, ep := false } }))) ∧
      (∀ (x : Word) d, 0x100 ≤ a → a < 0x300 → exec (.vaultWindowAccess (some x) d) s = .next (settle s (stepped s)) ∧
        exec (.vaultWindowAccess none d) s = .next (settle s (stepped { s with host := { s.host with data := leBytes 4 0, ep := false } })))) ∧
    (s.power.st < 2 → exec .wipeCmd s = .next (settle s { s with vault := { v with wiping := some 3 } })) ∧
    (v.wiping = none → exec .wiped s = .next (settle s s)) ∧
    (∀ c, v.wiping = some c → exec .wiped s = .next (settle s
      (((({ s with vault := { v with mem := [], bad := [], valid := 0, wiping := none, wiped := 2 ^ 30 + c } } : State).bump VAULT.WIPES 1).event pVAULT
        V.WIPED [.f 1 c]).raise pVAULT 2)))

/-- O23. A descriptor with OWN at 1 that DESC_FETCH brings to a running ring joins the ring's taken ones with its bytes unchanged, and
HEAD moves on unless it faults; OWN at 0 makes the ring wait, counts and signals the wait, unless a doorbell is pending, which it uses up;
of a ring that may not take one only the EP bit is recorded; DOORBELL, outside DOZE and NAP, from which it wakes the device first (O7),
makes a waiting ring read again, or is kept; RING_RESUME clears the halt; no other ring changes but for bursts it issues, and no byte of
memory does (R538 to R540, R543, R546 to R548; that the read of a descriptor goes out with what it returned is the model's choice, log
73). A request on one of the lines 12 to 47, which never request, or on one that no paced ring names, has no effect; on the line of
exactly one paced ring it is pending and the engines issue what they can, and at 255 pending it counts an overrun instead; where that ring
alone has taken a descriptor, none is pending and no block is held, one burst of it goes, in one buffer block, and uses the request up; a
SOFT_REQ of one bit, outside DOZE and NAP, is a request on line 48 plus its number (R554, R555). -/
def Obligations.RingsAndPacing : Prop :=
  (∀ (s : State) (n : Fin 32) (bytes : List Byte), s.power.st ≠ 4 → s.dma.ring.length = 32 →
     let r := s.ringOf n
     let core (r : Ring) : Ring := { r with taken := r.taken.map fun d => { d with sent := 0, blocks := 0 }, pacePend := 0 }
     let others (t : State) : Prop := (∀ i, i ≠ n.val → core (t.ringOf i) = core (s.ringOf i)) ∧ t.mem = s.mem ∧ t.slots = s.slots ∧ t.act = s.act
     let asked : State := { s with out := s.out ++ [.hostRead (s.active64 (RING.BASE_LO n) (RING.BASE_HI n) + 32 * r.head) 32] }
     (s.mayTake n = false → exec (.descFetch n bytes false) s = .next (settle s s) ∧
       exec (.descFetch n bytes true) s = .next (settle s (((s.error pHOST E.POISONED []).bump HOST.POISONED_TLPS 1).raise pHOST 3))) ∧
     (s.mayTake n = true → bit (fld bytes 0 4) 31 = true → ∃ t, exec (.descFetch n bytes false) s = .next t ∧ others t ∧
       (t.ringOf n).taken.map (·.bytes) = r.taken.map (·.bytes) ++ [bytes] ∧ (t.ringOf n).waiting = false ∧
       ∃ d ∈ (t.ringOf n).taken.getLast?, d.index = r.head ∧ d.bind = s.bindOf n ∧ d.fault = s.descFaults n d ∧
         (t.ringOf n).head = if d.fault then r.head else (r.head + 1) % s.active (RING.SIZE n)) ∧
     (s.mayTake n = true → ∃ t, exec (.descFetch n bytes true) s = .next t ∧ others t ∧
       (t.ringOf n).taken.map (·.bytes) = r.taken.map (·.bytes) ++ [bytes] ∧ (∃ d ∈ (t.ringOf n).taken.getLast?, d.poisoned = true ∧ d.fault = false) ∧
       bit (t.reg (IRQ_RAW pHOST)) 3 = true) ∧
     (s.mayTake n = true → bit (fld bytes 0 4) 31 = false → r.doorbell = false → exec (.descFetch n bytes false) s = .next (settle s
       (((asked.setRing n fun r => { r with waiting := true, reading := false }).bump (RING.WAITS n) 1).raise (pRING n) 3))) ∧
     (s.mayTake n = true → bit (fld bytes 0 4) 31 = false → r.doorbell = true → exec (.descFetch n bytes false) s = .next (settle s
       (asked.setRing n fun r => { r with doorbell := false }))) ∧
     (r.waiting = true → r.reading = false → s.power.st < 2 → exec (.doorbell n) s = .next (settle s (s.setRing n fun r => { r with reading := true }))) ∧
     (r.waiting = false ∨ r.reading = true → s.power.st < 2 → exec (.doorbell n) s = .next (settle s (s.setRing n fun r => { r with doorbell := true }))) ∧
     (∃ t, exec (.ringResume n) s = .next t ∧ others t ∧ (t.ringOf n).halted = false ∧ (t.ringOf n).taken = r.taken ∧
       (t.ringOf n).head = r.head ∧ (r.halted = true → (t.ringOf n).restart = true) ∧ (r.waiting = true → (t.ringOf n).reading = true))) ∧
  (∀ (s : State) (line : Fin 64), s.power.st ≠ 4 → s.dma.ring.length = 32 →
     let named (n : Nat) : Prop := (line.val < 12 ∨ 48 ≤ line.val) ∧ s.paced n = true ∧ bits (s.reg (RING.PACE n)) 21 16 = line.val
     ((∀ n < 32, ¬named n) → exec (.paceRequest line) s = .next (settle s s)) ∧
     (∀ n < 32, named n → (∀ i < 32, i ≠ n → ¬named i) →
       ((s.ringOf n).pacePend = 255 → exec (.paceRequest line) s = .next (settle s (s.bump (RING.PACE_OVERRUNS n) 1))) ∧
       ((s.ringOf n).pacePend ≠ 255 → exec (.paceRequest line) s = .next (settle s
         (s.setRing n fun r => { r with pacePend := r.pacePend + 1 }).issue)) ∧
       (∀ d, (∀ i, i ≠ n → (s.ringOf i).taken = []) → (s.ringOf n).pacePend = 0 → (s.ringOf n).taken = [d] → d.blocks = 0 → 0 < d.left →
         s.dma.flightRead = [] → s.dma.flightWrite = [] →
         ∃ t, exec (.paceRequest line) s = .next t ∧ (t.ringOf n).pacePend = 0 ∧
           (t.ringOf n).taken = [{ d with sent := d.sent + d.nextBurst (s.burstMax n), blocks := 1 }] ∧ t.mem = s.mem ∧
           (∀ i, i ≠ n → t.ringOf i = s.ringOf i))) ∧
     (s.power.st < 2 → ∀ i : Fin 16, exec (.softReq (BitVec.ofNat 16 (2 ^ i.val))) s = exec (.paceRequest ⟨48 + i.val, by omega⟩) s))

/-- O24. DESC_WRITEBACK of the oldest descriptor of an unbound ring, whose bursts have all gone and whose memory serves requests, stores
its LEN bytes at its device address, where they meet no beam entry or SPLIT.CTRL.EN is 0 and no word shows a double-bit error, or writes
the device bytes to its host address in parts of at most Max_Payload_Size that cross no 4 KiB boundary, and then writes back OWN 0, IRQ,
CQ and KIND unchanged, STATUS 0 and the bytes moved; with CQ at 1 it also posts an entry and moves CQ_TAIL; a full completion queue holds
it; while SPLIT.CTRL.EN is 1 no beam entry changes; a faulted one moves nothing, has STATUS DESC_FAULT, halts the ring, moves HEAD past
it, and on a letter ring discards what was taken after it; every byte of memory outside the store stays; CQ_ROOM moves CQ_HEAD and, with
no ring waiting, nothing else (R199, R533, R541 to R544, R551, R556 to R558). -/
def Obligations.DescriptorsCompleted : Prop :=
  (∀ (s : State) (n : Fin 32) (d : Desc) (rest : List Desc), s.power.st ≠ 4 → s.dma.ring.length = 32 →
    let w := d.word0
    let kept := bits w 30 29 * 2 ^ 29 + bits w 27 24 * 2 ^ 24
    let at_ := s.active64 (RING.BASE_LO n) (RING.BASE_HI n) + 32 * d.index
    let bare (ds : List Desc) : List Desc := ds.map fun d => { d with sent := 0, blocks := 0 }
    let inBeam (x : Nat) : Prop := s.beamRegion.1 ≤ x ∧ x < s.beamRegion.1 + s.beamRegion.2
    let data' := s.readMem d.devAddr d.len
    let posted : List Out := (hostCuts s.host.maxPayload d.hostAddr d.len).map fun p => .hostWrite p.1 ((data'.drop (p.1 - d.hostAddr)).take p.2)
    ((s.ringOf n).taken = [] → (s.ringOf n).stalled = none → ∀ data o, exec (.descWriteback n data o) s = .next (settle s s)) ∧
    ((s.ringOf n).stalled.isSome = true → ∀ data o, exec (.descWriteback n data o) s = .next (settle s s)) ∧
    ((s.ringOf n).taken = d :: rest → (s.ringOf n).stalled = none → d.fault = false → d.poisoned = false → d.bind = 0 → d.len ≠ 0 → d.frame = none →
      d.left = 0 → d.blocks = 0 → s.served d.regions = true → mapped d.devAddr d.len = true → memWf s.mem = true → banksApart s.scr = true →
      (bit w 29 = false → bit (s.active (RING.CFG n)) 0 = false → s.scr.bad = [] → ∀ (data : List Byte), data.length = d.len →
        ∃ t, exec (.descWriteback n data {}) s = .next t ∧ bare (t.ringOf n).taken = bare rest ∧
          (s.enabled pSPLIT = false ∨ overlaps d.devAddr d.len s.beamRegion.1 s.beamRegion.2 = false →
            t.mem = (s.writeMem d.devAddr data).mem ∧ ∀ k (h : k < data.length), t.devByte (d.devAddr + k) = data[k]) ∧
          (s.enabled pSPLIT = true → ∀ x, inBeam x → t.devByte x = s.devByte x) ∧
          (s.out ++ [.hostWrite at_ (leBytes 4 kept ++ leBytes 4 d.len)]) <+: t.out ∧
          (∀ x, x < d.devAddr ∨ d.devAddr + d.len ≤ x → t.devByte x = s.devByte x) ∧
          (bit w 30 = true → bit (t.reg (IRQ_RAW (pRING n))) 2 = true) ∧ t.slots = s.slots) ∧
      (bit w 29 = false → bit (s.active (RING.CFG n)) 0 = true → s.badAt d.devAddr d.len = [] → ∀ (data : List Byte),
        ∃ t, exec (.descWriteback n data {}) s = .next t ∧ t.mem = s.mem ∧ bare (t.ringOf n).taken = bare rest ∧
          (s.out ++ posted ++ [.hostWrite at_ (leBytes 4 kept ++ leBytes 4 d.len)]) <+: t.out ∧ t.slots = s.slots) ∧
      (bit w 29 = true → s.cqSize (s.cqOf n) ≠ 0 → s.cqFull (s.cqOf n) = false → bit (s.active (RING.CFG n)) 0 = true →
        s.badAt d.devAddr d.len = [] → ∀ (data : List Byte),
        let q := s.cqOf n
        let tail := s.reg (DMA.CQ_TAIL q)
        ∃ t, exec (.descWriteback n data {}) s = .next t ∧ t.mem = s.mem ∧
          (s.out ++ posted ++ [.hostWrite at_ (leBytes 4 kept ++ leBytes 4 d.len),
            .hostWrite (s.active64 (DMA.CQ_BASE_LO q) (DMA.CQ_BASE_HI q) + 16 * tail)
              (leBytes 2 0 ++ leBytes 1 n ++ leBytes 1 (if s.dma.phase.getD q true then 1 else 0) ++ leBytes 2 d.index ++ leBytes 2 0 ++
               leBytes 4 d.len ++ leBytes 4 d.tag)]) <+: t.out ∧ bit (t.reg (IRQ_RAW pDMA)) (8 + q) = true) ∧
      (bit w 29 = true → s.cqFull (s.cqOf n) = true → ∀ data o, ∃ t, exec (.descWriteback n data o) s = .next t ∧
        (t.ringOf n).stalled = some (data, s.moveMeets n d o) ∧ bare (t.ringOf n).taken = bare (d :: rest) ∧ t.mem = s.mem ∧
        t.reg (RING.DONE_COUNT n) = s.reg (RING.DONE_COUNT n))) ∧
    ((s.ringOf n).taken = d :: rest → (s.ringOf n).stalled = none → d.fault = true → d.blocks = 0 → bit w 29 = false →
      ∀ data o, ∃ t, exec (.descWriteback n data o) s = .next t ∧ t.mem = s.mem ∧ (t.ringOf n).halted = true ∧
        bare (t.ringOf n).taken = bare (if d.bind = 1 then rest.map fun x => { x with drop := true } else rest) ∧
        (t.ringOf n).head = ((s.ringOf n).head + 1) % max 1 (s.active (RING.SIZE n)) ∧
        (s.out ++ [.hostWrite at_ (leBytes 4 (kept + E.DESC_FAULT) ++ leBytes 4 0)]) <+: t.out ∧ bit (t.reg (IRQ_RAW (pRING n))) 4 = true) ∧
    (∀ (q : Fin 8) (head : BitVec 16), s.power.st < 2 → (∀ i < 32, (s.ringOf i).stalled = none) →
      exec (.cqRoom q head) s = .next (settle s (s.setReg (DMA.CQ_HEAD q) head.toNat)))) ∧
  (∀ m a n : Nat, 0 < m → ((hostCuts m a n).flatMap fun p => List.range' p.1 p.2) = List.range' a n ∧
    ∀ p ∈ hostCuts m a n, 0 < p.2 ∧ p.2 ≤ m ∧ p.1 / 4096 = (p.1 + p.2 - 1) / 4096)

/-- O25. LINK_DOWN leaves the link down and every ring halted and empty, with HEAD at its first abandoned descriptor, signals the change,
and counts and records it; PCIE_LINK_UP shows width and speed and signals the change; POISONED is recorded, counted and signalled, and
nothing else changes; MSIX_TABLE_ACCESS writes one word of one entry, or reads one, and unmasking a vector with its pending bit set sends
its message; CONFIG_ACCESS sets the function's power state, Max_Payload_Size, Max_Read_Request_Size and the enables of ECRC, leaving D3hot
wakes the device, and before READY it is only answered with a retry (R533, R534, R537, R538, R611, R613, R650; the table's layout and the
meaning of these fields are the PCI Express Base Specification's, log 13). -/
def Obligations.HostPortRules : Prop :=
  ∀ (s : State), s.power.st ≠ 4 →
    (s.dma.ring.length = 32 → ∃ t, exec .linkDown s = .next t ∧ t.host.link = 0 ∧ t.mem = s.mem ∧ t.slots = s.slots ∧
      (∀ n < 32, (t.ringOf n).halted = true ∧ (t.ringOf n).taken = [] ∧ (t.ringOf n).stalled = none ∧
        (t.ringOf n).head = ((s.ringOf n).taken.head?.map (·.index)).getD (s.ringOf n).head) ∧
      (bit s.host.link 31 = true → bit (t.reg (IRQ_RAW pHOST)) 2 = true)) ∧
    (∀ w v, bit s.host.link 31 = false → exec (.pcieLinkUp w v) s = .next (settle s
      (({ s with host := { s.host with link := 2 ^ 31 + w.toNat * 2 ^ 16 + v.toNat } } : State).raise pHOST 2))) ∧
    (∀ w v, bit s.host.link 31 = true → exec (.pcieLinkUp w v) s = .next (settle s
      { s with host := { s.host with link := 2 ^ 31 + w.toNat * 2 ^ 16 + v.toNat } })) ∧
    exec .poisoned s = .next (settle s (((s.error pHOST E.POISONED []).bump HOST.POISONED_TLPS 1).raise pHOST 3)) ∧
    (∀ c, s.power.ready = false → exec (.configAccess c) s = .next (settle s { s with out := s.out ++ [.configRetry] })) ∧
    (s.power.ready = true →
      exec (.configAccess (.power true)) s = .next (settle s { s with host := { s.host with d3hot := true } }) ∧
      exec (.configAccess (.power false)) s = .next (settle s { (if s.host.d3hot then s.wakeEvent 8 else s) with host := { s.host with d3hot := false } }) ∧
      (∀ c, exec (.configAccess (.maxPayload c)) s = .next (settle s { s with host := { s.host with maxPayload := 128 * 2 ^ c.val } })) ∧
      (∀ c, exec (.configAccess (.maxRead c)) s = .next (settle s { s with host := { s.host with maxRead := 128 * 2 ^ c.val } })) ∧
      (∀ g c, exec (.configAccess (.ecrc g c)) s = .next (settle s { s with host := { s.host with ecrcGen := g, ecrcCheck := c } }))) ∧
    (∀ (v : Fin 64) (i : Fin 4) (x : Word),
      let e := s.irq.table.getD v {}
      let e' : MsixEntry := if i = 0 then { e with addrLo := x &&& 0xFFFFFFFC } else if i = 1 then { e with addrHi := x }
        else if i = 2 then { e with data := x } else { e with masked := x.getLsbD 0 }
      let u : State := { s with irq := { s.irq with table := s.irq.table.set v e' } }
      let o : BitVec 14 := BitVec.ofNat 14 (16 * v.val + 4 * i.val)
      s.irq.table.length = 64 →
      (s.irq.pba.contains v.val = false ∨ e'.masked = true → exec (.msixTableAccess o (some x)) s = .next (settle s u)) ∧
      (s.irq.pba.contains v.val = true → e'.masked = false → exec (.msixTableAccess o (some x)) s = .next (settle s
        (({ u with irq := { u.irq with pba := s.irq.pba.erase v.val } } : State).emit
          (.msix v (e'.addrLo.toNat + e'.addrHi.toNat * 2 ^ 32) e'.data)))) ∧
      exec (.msixTableAccess o none) s = .next (settle s { s with host := { s.host with ep := false, data := leBytes 4 (if i = 0 then e.addrLo else if i = 1 then e.addrHi
        else if i = 2 then e.data else if e.masked then 1 else 0).toNat } }))

/-- O26. For each PRESET from 1 to 5 the parameters of a scan are those of the table, whatever WIDTH, REFIN, REFOUT, POLY, INIT and XOROUT
hold, and the check value of the nine ASCII bytes "123456789" is the one of the check column; with PRESET 0 the custom parameters are
used. -/
def Obligations.CheckPresets : Prop :=
  (∀ cfg poly init xorOut : Nat,
    (bits cfg 31 28 = 0 → chkParams cfg poly init xorOut = ⟨bits cfg 22 16, poly, init, bit cfg 0, bit cfg 1, xorOut⟩) ∧
    (bits cfg 31 28 = 1 → chkParams cfg poly init xorOut = ⟨32, 0x1EDC6F41, 2 ^ 32 - 1, true, true, 2 ^ 32 - 1⟩) ∧
    (bits cfg 31 28 = 2 → chkParams cfg poly init xorOut = ⟨32, 0x04C11DB7, 2 ^ 32 - 1, true, true, 2 ^ 32 - 1⟩) ∧
    (bits cfg 31 28 = 3 → chkParams cfg poly init xorOut = ⟨64, 0x42F0E1EBA9EA3693, 2 ^ 64 - 1, true, true, 2 ^ 64 - 1⟩) ∧
    (bits cfg 31 28 = 4 → chkParams cfg poly init xorOut = ⟨16, 0x1021, 0xFFFF, false, false, 0⟩) ∧
    (bits cfg 31 28 = 5 → chkParams cfg poly init xorOut = ⟨8, 0x07, 0, false, false, 0⟩)) ∧
  (let nine : List Byte := [0x31, 0x32, 0x33, 0x34, 0x35, 0x36, 0x37, 0x38, 0x39];
    crc (crcPreset 1) nine = 0xE3069283 ∧ crc (crcPreset 2) nine = 0xCBF43926 ∧ crc (crcPreset 3) nine = 0x995DC9BBDF1939FA ∧
    crc (crcPreset 4) nine = 0x29B1 ∧ crc (crcPreset 5) nine = 0xF4)

/-- O27. Starts and STOP are said for the device outside DOZE and NAP, from which they wake it first (O7). A start that nothing refuses
begins a scan with the registers of that moment, FRESH from INIT and CONTINUE from the running value; a refused one sets RESULT to REFUSED
and changes no running value; a scan without compare that ends in order leaves the value of its bytes in RESULT, their number in SCANNED
and DONE; one whose compare fails is recorded and signalled, with MATCH 0, and one whose compare agrees has MATCH 1; one with a failed
read ends with MEM_ERROR and the bytes before the failed unit of 256 bytes in SCANNED; while its memory serves no request a scan does not
end; STOP ends a scan at the next 64-byte boundary, ABORTED; and a scan stopped after n bytes and continued over the rest gives the value
of the whole (R500, R505, R563 to R573). TEST, RUN_WRITE and SUBST_WRITE are said for the device outside DOZE and NAP (O7). TEST starts
the known-answer test of an idle unit that is available; CHK_TEST_DONE ends it, and one that failed leaves the serving physical unit
FAILED, recorded and signalled; RUN_WRITE sets one half of the running value of an idle unit, for host software's next own start where the
album scrub owns the unit, and is dropped and counted on a busy one; SUBST_WRITE stores SUBST while the units concerned before and after
are idle, and else is dropped and counted; ALBUM_SCRUB_START takes the unit for the next READY stamp; ALBUM_SCRUB_DONE frees it and counts
a stamp that agrees, one with a failed read ends with MEM_ERROR, and a stamp that does not agree becomes BAD, counted and signalled (R120,
R131, R567 to R575; which stamp is next is log 77). -/
def Obligations.CheckUnits : Prop :=
  (∀ (s : State) (u : Fin 9), s.power.st ≠ 4 → risingFrom 0 s.regs = true → s.chk.unit.length = 9 →
     (s.startRefused u = false → s.power.st < 2 →
       exec (.fresh u) s = .next (settle s (s.setChk u fun c => { c with scan := some (s.scanOf u true), hostRun := none })) ∧
       exec (.continue u) s = .next (settle s (s.setChk u fun c => { c with scan := some (s.scanOf u false), hostRun := none })) ∧
       (s.scanOf u true).run = crcStart (s.scanOf u true).params ∧ (s.scanOf u false).run = ((s.chkOf u).hostRun.getD (s.chkOf u).run)) ∧
     ((s.chkOf u).scan.isSome = true ∨ s.enabled pCHK = false ∨ s.chkFailed u = true ∨ s.albumOwns u = true → s.startRefused u = true) ∧
     (s.startRefused u = true → s.power.st < 2 →
       exec (.fresh u) s = .next (settle s (s.setReg (CHK.STAT u) (putField (s.reg (CHK.STAT u)) 2 0 4))) ∧
       exec (.continue u) s = .next (settle s (s.setReg (CHK.STAT u) (putField (s.reg (CHK.STAT u)) 2 0 4)))) ∧
     ((s.chkOf u).scan = none → (∀ mem, exec (.chkScanDone u mem) s = .next (settle s s)) ∧ (s.power.st < 2 → ∀ k, exec (.stop u k) s = .next (settle s s))) ∧
     (∀ x, (s.chkOf u).scan = some x → s.badAt x.addr x.len = [] →
       let value := crcResult x.params (s.runAfter x x.len)
       let served := s.served [(x.addr, x.len)] = true
       (s.served [(x.addr, x.len)] = false → ∀ mem, exec (.chkScanDone u mem) s = .next (settle s s)) ∧
       (bit x.cfg 2 = false → served → ∀ m, ∃ t, exec (.chkScanDone u { corrected := m }) s = .next t ∧ (t.chkOf u).scan = none ∧
         (t.chkOf u).run = s.runAfter x x.len ∧ t.reg (CHK.RESULT_LO u) = value % 2 ^ 32 ∧ t.reg (CHK.RESULT_HI u) = value / 2 ^ 32 % 2 ^ 32 ∧
         t.reg (CHK.SCANNED u) = x.len % 2 ^ 32 ∧ bit (t.reg (CHK.STAT u)) 31 = true ∧
         bits (t.reg (CHK.STAT u)) 2 0 = (if x.len = 0 then 1 else 0) ∧ bit (t.reg (IRQ_RAW pCHK)) 2 = true ∧ t.mem = s.mem ∧ t.slots = s.slots) ∧
       (bit x.cfg 2 = true → value ≠ x.expect → served → ∀ m, ∃ t, exec (.chkScanDone u { corrected := m }) s = .next t ∧ (t.chkOf u).scan = none ∧
         bits (t.reg (CHK.STAT u)) 2 0 = 2 ∧ bit (t.reg (CHK.STAT u)) 27 = false ∧ bit (t.reg (IRQ_RAW pCHK)) 3 = true ∧ t.mem = s.mem) ∧
       (bit x.cfg 2 = true → value = x.expect → x.len ≠ 0 → served → ∀ m, ∃ t, exec (.chkScanDone u { corrected := m }) s = .next t ∧
         (t.chkOf u).scan = none ∧ bits (t.reg (CHK.STAT u)) 2 0 = 0 ∧ bit (t.reg (CHK.STAT u)) 27 = true ∧ t.mem = s.mem) ∧
       (∀ m f a, failedRead f = some a → x.addr ≤ a → a < x.addr + x.len → served →
         ∃ t, exec (.chkScanDone u { corrected := m, faults := [f] }) s = .next t ∧ (t.chkOf u).scan = none ∧
           bits (t.reg (CHK.STAT u)) 2 0 = 5 ∧ t.reg (CHK.SCANNED u) = min x.len (a / 256 * 256 - x.addr) % 2 ^ 32 ∧ t.mem = s.mem) ∧
       (∀ k, let n := min x.len ((k + 63) / 64 * 64)
         s.badAt x.addr n = [] →
         ∃ t, exec (.stop u k) s = .next t ∧ (t.chkOf u).scan = none ∧ (t.chkOf u).run = s.runAfter x n ∧
           t.reg (CHK.SCANNED u) = n % 2 ^ 32 ∧ bits (t.reg (CHK.STAT u)) 2 0 = 3 ∧ t.mem = s.mem)) ∧
     (∀ (x : Scan) (n : Nat), memWf s.mem = true → n ≤ x.len → s.runAfter x x.len =
       s.runAfter { x with addr := x.addr + n, len := x.len - n, run := s.runAfter x n } (x.len - n))) ∧
  (∀ (s : State), s.power.st ≠ 4 → risingFrom 0 s.regs = true →
     (∀ u : Fin 9,
       (s.chkBusy u = false → s.unitUnavailable u = false → s.power.st < 2 →
         exec (.test u) s = .next (settle s (s.setChk u fun c => { c with testing := true }))) ∧
       (s.chkBusy u = true ∨ s.unitUnavailable u = true → s.power.st < 2 → exec (.test u) s = .next (settle s s)) ∧
       (∀ p, (s.chkOf u).testing = false → exec (.chkTestDone u p) s = .next (settle s s)) ∧
       ((s.chkOf u).testing = true → exec (.chkTestDone u true) s = .next (settle s (s.setChk u fun c => { c with testing := false }))) ∧
       ((s.chkOf u).testing = true → s.chk.failed.length = 9 → ∃ t, exec (.chkTestDone u false) s = .next t ∧ t.chkFailed u = true ∧
         bit (t.reg (IRQ_RAW pCHK)) 4 = true ∧ (∀ v, (t.chkOf v).run = (s.chkOf v).run) ∧ t.mem = s.mem) ∧
       (∀ hi (w : Word), s.chkBusy u = true → s.power.st < 2 → exec (.runWrite u hi w) s = .next (settle s (s.bump CHK.RUN_WRITES_DROPPED 1))) ∧
       (∀ hi (w : Word), s.chkBusy u = false → s.power.st < 2 →
         let r (c : ChkUnit) : Nat := if hi then putField (c.hostRun.getD c.run) 63 32 w.toNat else putField (c.hostRun.getD c.run) 31 0 w.toNat
         (s.albumOwns u = false → exec (.runWrite u hi w) s = .next (settle s (s.setChk u fun c => { c with run := r c, hostRun := none }))) ∧
         (s.albumOwns u = true → exec (.runWrite u hi w) s = .next (settle s (s.setChk u fun c => { c with hostRun := some (r c) }))))) ∧
     (∀ w : Word, s.power.st < 2 → let old := s.reg CHK.SUBST
       let idle (v : Nat) : Prop := bit v 31 = false ∨ (s.chkBusy (bits v 2 0) = false ∧ s.chkBusy 8 = false)
       (idle old → idle w.toNat → exec (.substWrite w) s = .next (settle s (s.setReg CHK.SUBST (w.toNat &&& substMask)))) ∧
       (¬idle old ∨ ¬idle w.toNat → exec (.substWrite w) s = .next (settle s ((s.setReg CHK.SUBST old).bump CHK.RUN_WRITES_DROPPED 1)))) ∧
     (s.readyStamps = [] → exec .albumScrubStart s = .next (settle s s)) ∧
     (∀ u p q, bit (s.reg ALBUM.SCRUB) 31 = true → s.enabled pCHK = true → s.chk.scrub = none → u = bits (s.reg ALBUM.SCRUB) 19 16 → u ≤ 8 →
       s.chkBusy u = false → s.chkFailed u = false → s.unitUnavailable u = false → s.nextStamp = some p → (s.slotOf p.1).stampOf p.2 = some q →
       let run : ScrubRun :=
         { unit := u, slot := p.1, job := (s.slotOf p.1).job, num := q.num, frames := s.stampRegions q, check := q.check }
       exec .albumScrubStart s = .next (settle s { s with chk := { s.chk with album := some u, scrub := some run } })) ∧
     (∀ mem, s.chk.scrub = none → exec (.albumScrubDone mem) s = .next (settle s s)) ∧
     (∀ mem x, s.chk.scrub = some x → s.served x.frames = false → exec (.albumScrubDone mem) s = .next (settle s s)) ∧
     (∀ x m, s.chk.scrub = some x → x.unit ≤ 8 → s.served x.frames = true → s.scr.bad = [] →
       (∀ f g rest a, x.frames = g :: rest → failedRead f = some a → g.1 ≤ a → a < g.1 + g.2 →
         ∃ t, exec (.albumScrubDone { corrected := m, faults := [f] }) s = .next t ∧ t.chk.scrub = none ∧ t.slots = s.slots ∧ t.mem = s.mem ∧
           bits (t.reg (CHK.STAT x.unit)) 2 0 = 5) ∧
       (x.frames ≠ [] → crc32c (x.frames.map fun r => s.readMem r.1 r.2).flatten = x.check →
         ∃ t, exec (.albumScrubDone { corrected := m }) s = .next t ∧ t.chk.scrub = none ∧ t.slots = s.slots ∧ t.mem = s.mem ∧
           t.reg ALBUM.SCRUBS = (min (s.reg ALBUM.SCRUBS + 1) 0xFFFFFFFF) ∧ bit (t.reg (CHK.STAT x.unit)) 27 = true) ∧
       (∀ q, x.frames ≠ [] → crc32c (x.frames.map fun r => s.readMem r.1 r.2).flatten ≠ x.check → s.scrubStamp x = some q → s.slots.length = 4 →
         x.slot < 4 → ∃ t, exec (.albumScrubDone { corrected := m }) s = .next t ∧ t.chk.scrub = none ∧ t.mem = s.mem ∧
           ((t.slotOf x.slot).stampOf x.num).map (·.st) = some 3 ∧ t.reg ALBUM.SCRUB_FAILS = min (s.reg ALBUM.SCRUB_FAILS + 1) 0xFFFFFFFF ∧
           bit (t.reg (IRQ_RAW pALBUM)) 4 = true ∧ bit (t.reg (CHK.STAT x.unit)) 27 = false)))

/-- O28. CMP_START, outside DOZE and NAP (O7), makes an idle compressor's register job wait and does nothing while one is there; CMP_TAKE
gives an idle enabled compressor the waiting job of highest priority, with the bytes of its source, once the source's memory serves
requests, and marks it where a read of it failed; CMP_DONE of a register job whose output fits stores the encoded bytes at the destination
and shows their length and the check value of the source, where what it reads back decodes to the source; one in which the check finds a
difference or a memory fault shows VERIFY_FAIL, one whose first block does not fit OUTPUT_FULL, and an empty source ZERO; no byte of
memory outside the destination changes; while its memory serves no request a job does not end; SEGMENT_PACKED ends the pack job of the
closed segment, a failed one counted and left unpacked (R101 to R107, R112, R500, R505, R593). -/
def Obligations.CompressorJobs : Prop :=
  ∀ (s : State) (c : Fin 2), s.power.st ≠ 4 → s.cmp.length = 2 →
    (s.registerJob c = true → s.power.st < 2 → exec (.cmpStart c) s = .next (settle s s)) ∧
    (s.registerJob c = false → s.power.st < 2 → exec (.cmpStart c) s = .next (settle s (s.setCmp c fun u => { u with waits := true }))) ∧
    (∀ album mem, s.enabled pCMP = false ∨ (s.cmpOf c).run.isSome = true ∨ s.cmpNext c album = none →
      exec (.cmpTake c album mem) s = .next (settle s s)) ∧
    (∀ album client q, s.enabled pCMP = true → (s.cmpOf c).run = none → s.cmpNext c album = some (client, q) →
      let rs := if q.srcLen = 0 then [] else s.cmpSources client q
      (s.served rs = false → ∀ mem, exec (.cmpTake c album mem) s = .next (settle s s)) ∧
      (s.served rs = true → s.scr.bad = [] → ∃ t, exec (.cmpTake c album {}) s = .next t ∧ t.mem = s.mem ∧ t.slots = s.slots ∧
        (t.cmpOf c).run = some { client := client, req := q, data := (s.cmpSource client q []).1, ring := if client = 3 then s.cmpRing c else none } ∧
        (t.cmpOf c).waits = ((s.cmpOf c).waits && client != 4)) ∧
      (s.served rs = true → ∀ mem, mem.faults ≠ [] → ∃ t, exec (.cmpTake c album mem) s = .next t ∧ t.mem = s.mem ∧
        ∃ j, (t.cmpOf c).run = some j ∧ j.client = client ∧ j.req = q ∧ j.bad = true)) ∧
    (∀ album, let pack := if s.ledgerUnit = c then s.packJob else none
      (∀ q, pack = some q → s.cmpNext c album = some (1, q)) ∧
      (∀ q, pack = none → album = some q → s.cmpNext c album = some (2, q)) ∧
      (∀ q, pack = none → album = none → s.ringJob c = some q → s.cmpNext c album = some (3, q)) ∧
      (∀ q, pack = none → album = none → s.ringJob c = none → s.registerReq c = some q → s.cmpNext c album = some (4, q)) ∧
      (pack = none → album = none → s.ringJob c = none → s.registerReq c = none → s.cmpNext c album = none)) ∧
    ((s.cmpOf c).run = none → ∀ e mem, exec (.cmpDone c e mem) s = .next (settle s s)) ∧
    (∀ j, (s.cmpOf c).run = some j → s.served (s.cmpUses j) = false → ∀ e mem, exec (.cmpDone c e mem) s = .next (settle s s)) ∧
    (∀ j, (s.cmpOf c).run = some j → j.client = 4 → j.req.srcLen = 0 → ∀ e mem, ∃ t, exec (.cmpDone c e mem) s = .next t ∧
      t.reg (CMP.RESULT_STATUS c) = 2 ^ 31 + E.ZERO ∧ (t.cmpOf c).run = none ∧ t.mem = s.mem) ∧
    (∀ j, (s.cmpOf c).run = some j → j.client = 4 → j.req.srcLen ≠ 0 → s.served (s.cmpUses j) = true → memWf s.mem = true → banksApart s.scr = true →
      let q := j.req
      let fits := firstBlockFits j
      (∀ o m, fits = true → compress j.data q.dstLen q.param = some o → j.data = s.readMem q.src q.srcLen → j.bad = false → s.scr.bad = [] →
        (decodePayload o q.srcLen (crc32c j.data) true false).code = E.NONE → (decodePayload o q.srcLen (crc32c j.data) true false).out = j.data →
        mapped q.src q.srcLen = true → mapped q.dst o.length = true → overlaps q.src q.srcLen q.dst o.length = false →
        s.enabled pSPLIT = false ∨ overlaps q.dst o.length s.beamRegion.1 s.beamRegion.2 = false →
        ∃ t, exec (.cmpDone c true { corrected := m }) s = .next t ∧ (∀ k (h : k < o.length), t.devByte (q.dst + k) = o[k]) ∧
          (∀ x, x < q.dst ∨ q.dst + o.length ≤ x → t.devByte x = s.devByte x) ∧
          t.reg (CMP.RESULT_STATUS c) = 2 ^ 31 + E.NONE ∧ (t.cmpOf c).run = none ∧ bit (t.reg (IRQ_RAW pCMP)) (2 + c) = true ∧
          (risingFrom 0 s.regs = true → t.reg (CMP.RESULT_LEN c) = o.length % 2 ^ 32 ∧ t.reg (CMP.RESULT_CHECK c) = crc32c j.data % 2 ^ 32)) ∧
      (∀ e mem, fits = true → e = false ∨ mem.faults ≠ [] ∨ j.bad = true → ∃ t, exec (.cmpDone c e mem) s = .next t ∧
        t.reg (CMP.RESULT_STATUS c) = 2 ^ 31 + E.VERIFY_FAIL ∧ (t.cmpOf c).run = none ∧ bit (t.reg (IRQ_RAW pCMP)) 4 = true ∧
        ∀ x, x < q.dst ∨ q.dst + q.dstLen ≤ x → t.devByte x = s.devByte x) ∧
      (∀ e mem, fits = false ∨ (compress j.data q.dstLen q.param = none ∧ e = true ∧ mem.faults = [] ∧ j.bad = false ∧ s.scr.bad = []) →
        ∃ t, exec (.cmpDone c e mem) s = .next t ∧
        t.reg (CMP.RESULT_STATUS c) = 2 ^ 31 + E.OUTPUT_FULL ∧ (t.cmpOf c).run = none ∧
        ∀ x, x < q.dst ∨ q.dst + q.dstLen ≤ x → t.devByte x = s.devByte x)) ∧
    (s.led.segment = none → (s.cmpOf s.ledgerUnit).run = none → s.enabled pCMP = false → ∀ f,
      exec (.segmentPacked f) s = .next (settle s s)) ∧
    (∀ j g, (s.cmpOf s.ledgerUnit).run = some j → j.client = 1 → j.req.srcLen = 32 * g.count → g.count ≠ 0 → s.served (s.cmpUses j) = true →
      s.led.segment = some g → g.packing = true →
      ∃ t, exec (.segmentPacked true) s = .next t ∧ t.led.segment = some { g with packing := false } ∧ (t.cmpOf s.ledgerUnit).run = none ∧
        t.led.waiting = s.led.waiting)

/-- O29. Once the records held before are in the ring, LEDGER_WRITE of a source with nothing waiting has no effect; the oldest record of a
source that fits in 16 payload bytes takes the next SEQ and is written, postmarked with SEQ, device, source and code, into the next slot
of a ring with room, and no other byte of memory changes; as a request to HBM it wakes the device, but for a STATE record (the model's
reading, log 54); while LEDGER.CTRL.EN is 0 it is held, and dropped and counted when 1,024 are held; while the ring's memory serves no
request a record waits; records that were held go into the ring in their order once EN is 1; a source holds at most 16 records, and
LEDGER_OVERRUN queues one record with the number that it dropped (R578, R583 to R585, R592). -/
def Obligations.LedgerWriter : Prop :=
  ∀ (s : State) (p : Fin 60) (r : Rec) (rest : List Rec), s.power.st ≠ 4 → risingFrom 0 s.regs = true →
    let bs := fldBytes (s.auxLine r) r.flds
    let bytes := recordBytes s.time.ns s.led.seq s.deviceNo r.src r.code (s.auxOf r) (bs ++ List.replicate (16 - bs.length) 0)
    let at_ := s.ringBase + 32 * (s.led.written % s.ringCap)
    (s.waitingAt p = [] → s.enabled pLEDGER = false ∨ s.led.held = [] → ∀ mem, exec (.ledgerWrite p mem) s = .next (settle s s)) ∧
    (s.enabled pLEDGER = true → s.led.held = [] → (∀ r ∈ (s.waitingAt p).head?, s.served (s.ringRegions s.led.written (s.recCount r)) = false) →
      ∀ mem, exec (.ledgerWrite p mem) s = .next (settle s s)) ∧
    (s.enabled pLEDGER = true → s.led.held ≠ [] → s.served (s.ringRegions s.led.written s.led.held.length) = false →
      ∀ mem, exec (.ledgerWrite p mem) s = .next (settle s s)) ∧
    (s.enabled pLEDGER = true → s.served (s.ringRegions s.led.written s.led.held.length) = true → s.waitingAt p = [] → s.power.st < 2 →
      0 < s.ringCap → s.led.waiting.length + s.led.held.length ≤ s.ringCap → ∀ mem, ∃ t, exec (.ledgerWrite p mem) s = .next t ∧
        t.led.held = [] ∧ t.led.waiting = s.led.waiting ++ s.led.held.map (·.2) ∧ t.led.seq = s.led.seq ∧ t.slots = s.slots) ∧
    (s.waitingAt p = r :: rest → bs.length ≤ 16 → r.latch = none → r.opens = none → r.closes = none →
      (∀ q < 8, bit (s.reg (LEDGER.Q_FILTER q)) 31 = false) →
      (s.enabled pLEDGER = true → s.led.held = [] → 0 < s.ringCap → s.led.waiting.length < s.ringCap →
        s.served (s.ringRegions s.led.written 1) = true → ∀ m, ∃ t, exec (.ledgerWrite p { corrected := m }) s = .next t ∧
          (memWf s.mem = true → at_ + 32 ≤ scratchBase → t.readMem at_ 32 = bytes ∧ bytes.length = 32 ∧
            ∀ x, x < at_ ∨ at_ + 32 ≤ x → t.devByte x = s.devByte x) ∧
          t.led.seq = (s.led.seq + 1) % 2 ^ 32 ∧ t.led.written = s.led.written + 1 ∧ t.led.waiting.length = s.led.waiting.length + 1 ∧
          t.led.tallies = s.led.tallies ∧ t.slots = s.slots ∧
          (s.power.st < 2 → t.waitingAt p = rest ∧ t.power.st = s.power.st) ∧
          (s.power.st = 2 ∨ s.power.st = 3 → at_ + 32 ≤ scratchBase → r.code ≠ V.STATE → r.code < 2 ^ 16 →
            t.power.st = 1 ∧ t.power.lastWake = wakeMEMORY)) ∧
      (s.enabled pLEDGER = false → s.led.held.length < 1024 → ∀ m, ∃ t, exec (.ledgerWrite p { corrected := m }) s = .next t ∧ t.mem = s.mem ∧
        t.led.seq = (s.led.seq + 1) % 2 ^ 32 ∧ t.waitingAt p = rest ∧
        t.led.held.map (·.1) = s.led.held.map (·.1) ++ [bytes]) ∧
      (s.enabled pLEDGER = false → 1024 ≤ s.led.held.length → ∀ m, ∃ t, exec (.ledgerWrite p { corrected := m }) s = .next t ∧ t.mem = s.mem ∧
        t.led.seq = s.led.seq ∧ t.waitingAt p = rest ∧ t.led.held = s.led.held ∧
        t.reg LEDGER.HELD_LOST = min (s.reg LEDGER.HELD_LOST + 1) 0xFFFFFFFF)) ∧
    ((s.waitingAt r.src).length ≤ 16 → ((s.post r).waitingAt r.src).length ≤ 16) ∧
    (keyGet s.led.dropped p.val = none → exec (.ledgerOverrun p) s = .next (settle s s)) ∧
    (∀ n, keyGet s.led.dropped p.val = some n → (s.waitingAt p).length < 16 → p.val ≠ pLEDGER → exec (.ledgerOverrun p) s = .next (settle s
      (({ s with led := { s.led with dropped := keyErase s.led.dropped p } } : State).post
        { src := p, code := E.LEDGER_OVERRUN, flds := [.f 4 n], latch := some pLEDGER })))

/-- O30. The first report of a cause opens its tally and waits a record in full; a later one is only counted, with its line time, but one
at an edge where SPLIT_LINES closes the tally opens the next one after it (the model's reading, log 17); every line event makes every open
tally one line time older; TALLY_SPLIT with SPLIT_LINES 0 has no effect, and with N it closes exactly the tallies open for N line times,
and changes no memory (R586 to R589). -/
def Obligations.TallyRules : Prop :=
  ∀ (s : State), s.power.st ≠ 4 →
    (∀ (p code key n : Nat) (fl ex : List Fld), s.tally? code key = none → (s.waitingAt p).length < 16 →
      let u := s.report p code key n fl ex none none false
      u.waitingAt p = s.waitingAt p ++ [{ src := p, code := code, flds := fl, opens := some s.led.tallyNext }] ∧
      u.led.tallies = s.led.tallies ++
        [{ id := s.led.tallyNext, src := p, code := code, key := key, count := min n 0xFFFFFFFF, first := s.lineTime, last := s.lineTime,
           extra := ex, byLine := false }]) ∧
    (∀ (p code key n : Nat) (fl ex : List Fld) (l q : Option Nat) (b : Bool) (t : Tally), s.tally? code key = some t →
      bits (s.reg LEDGER.TALLY_CFG) 23 0 = 0 ∨ t.age < bits (s.reg LEDGER.TALLY_CFG) 23 0 →
      let u := s.report p code key n fl ex l q b
      u.led.queues = s.led.queues ∧ u.regs = s.regs ∧ u.led.tallies = s.led.tallies.map fun v =>
        if v.id = t.id then { t with count := min (t.count + n) 0xFFFFFFFF, last := s.lineTime, extra := ex } else v) ∧
    (∀ (p code key n : Nat) (fl ex : List Fld) (l q : Option Nat) (b : Bool) (t : Tally), s.tally? code key = some t →
      bits (s.reg LEDGER.TALLY_CFG) 23 0 ≠ 0 → bits (s.reg LEDGER.TALLY_CFG) 23 0 ≤ t.age →
      s.report p code key n fl ex l q b = (s.closeTally t).openTally p code key n fl ex l q b) ∧
    (bits (s.reg LEDGER.TALLY_CFG) 23 0 = 0 → exec .tallySplit s = .next (settle s s)) ∧
    (bits (s.reg LEDGER.TALLY_CFG) 23 0 ≠ 0 → (s.led.tallies.map (·.id)).Nodup → ∃ t, exec .tallySplit s = .next t ∧ t.mem = s.mem ∧
      t.led.tallies = s.led.tallies.filter fun v => decide (v.age < bits (s.reg LEDGER.TALLY_CFG) 23 0)) ∧
    s.countLine.led.tallies = s.led.tallies.map fun v => { v with age := v.age + 1 }

/-- O31. SEGMENT_CLOSE with records waiting and no segment closed closes one over the oldest, at most 2^SEG_LOG2, to be packed while PACK
is 1; else it has no effect; SEGMENT_EXPORT sends a closed segment that is not being packed to queue 0 when it has room: the header, the
payload and zeros, in whole 32-byte slots at Q_TAIL, and EXPORT_SEQ moves past it; with no room, while packing, or while the ring's memory
serves no request, it has no effect (R593, R594, R596, R597). -/
def Obligations.LedgerSegments : Prop :=
  ∀ (s : State), s.power.st ≠ 4 →
    (s.led.segment.isSome = true ∨ s.led.waiting = [] → exec .segmentClose s = .next (settle s s)) ∧
    (s.led.segment = none → s.led.waiting ≠ [] → exec .segmentClose s = .next (settle s { s with led := { s.led with
      segment := some { count := min s.segRecords s.led.waiting.length, packing := bit (s.reg (CTRL pLEDGER)) 1, packed := none } } })) ∧
    (s.led.segment = none → ∀ mem, exec (.segmentExport mem) s = .next (settle s s)) ∧
    (∀ g, s.led.segment = some g →
      let raw := s.segmentRaw g.count
      let payload := (g.packed.map fun k => s.readMem s.packArea k).getD raw
      let item := s.segmentHeader g payload raw ++ payload
      let n := ceilDiv (32 + g.packed.getD (32 * g.count)) 32
      let q := s.active64 (LEDGER.Q_BASE_LO 0) (LEDGER.Q_BASE_HI 0)
      (s.segmentHeader g payload raw).length = 32 ∧
      (g.packing = true ∨ bit (s.reg (LEDGER.Q_FILTER 0)) 31 = false ∨ s.queueFree 0 < n ∨
        s.served (s.segmentRegions g) = false → ∀ mem, exec (.segmentExport mem) s = .next (settle s s)) ∧
      (g.packing = false → bit (s.reg (LEDGER.Q_FILTER 0)) 31 = true → n ≤ s.queueFree 0 → s.served (s.segmentRegions g) = true →
        ∀ m, ∃ t, exec (.segmentExport { corrected := m }) s = .next t ∧
        t.led.segment = none ∧ t.led.waiting = s.led.waiting.drop g.count ∧ t.led.gap = false ∧ t.mem = s.mem ∧ t.slots = s.slots ∧
        bit (t.reg (IRQ_RAW pLEDGER)) 8 = true ∧
        ((slots32 n item).length = n) ∧
        (s.reg (LEDGER.Q_TAIL 0) < s.active (LEDGER.Q_SIZE 0) → s.active (LEDGER.Q_SIZE 0) < 2 ^ 32 → risingFrom 0 s.regs = true →
          t.reg (LEDGER.Q_TAIL 0) = (s.reg (LEDGER.Q_TAIL 0) + n) % s.active (LEDGER.Q_SIZE 0) ∧
          (s.out ++ (slots32 n item).zipIdx.map fun x =>
            Out.hostWrite (q + 32 * ((s.reg (LEDGER.Q_TAIL 0) + x.2) % s.active (LEDGER.Q_SIZE 0))) x.1) <+: t.out)))

/-- O32. DIGEST at an edge that ends a window of N line times waits a DIGEST record with the window's first line time, N, the check value
over its seals and their number, and at any other edge nothing; REPLAY_START, outside DOZE and NAP, with every job slot EMPTY starts a
replay at REPLAY_START with no segment outstanding and records it, and with a slot in use leaves EN at 0; REPLAY_PACER without a running
replay has no effect, and otherwise, when it does not hold, counts one line time; REPLAY_END after the last record sets DONE, clears
RUNNING and records it, and before that has no effect (R599 to R605; the model's choices are in log 30). -/
def Obligations.DigestsAndReplay : Prop :=
  ∀ (s : State), s.power.st ≠ 4 →
    let n := if s.led.digestN = 0 then bits (s.reg LEDGER.DIGEST_CFG) 15 0 else s.led.digestN
    (n = 0 ∨ s.lineTime % n ≠ 0 ∨ s.lineTime < n → exec .digest s = .next (settle s { s with led := { s.led with digestN := n } })) ∧
    (n ≠ 0 → s.lineTime % n = 0 → n ≤ s.lineTime → s.replayRuns = false → ∃ t, exec .digest s = .next t ∧ t.mem = s.mem ∧ t.slots = s.slots ∧
      ((s.waitingAt pLEDGER).length < 16 → t.waitingAt pLEDGER = s.waitingAt pLEDGER ++
        [{ src := pLEDGER, code := V.DIGEST,
           flds := [.lt (s.lineTime - n), .f 2 n, .f 4 (crc32c ((s.windowSeals s.lineTime n).flatMap (leBytes 4))),
                    .f 4 (s.windowSeals s.lineTime n).length] }])) ∧
    (s.replayRuns = false → (∀ x ∈ s.slots, x.st = .empty) → s.power.st < 2 → risingFrom 0 s.regs = true → ∃ t, exec .replayStart s = .next t ∧ t.segs = [] ∧
      t.lineTime = s.active64 LEDGER.REPLAY_START_LO LEDGER.REPLAY_START_HI % 2 ^ 48 ∧ t.replayRuns = true ∧ t.mem = s.mem ∧ t.slots = s.slots) ∧
    (s.replayRuns = true → s.power.st < 2 → exec .replayStart s = .next (settle s s)) ∧
    (s.replayRuns = false → (∃ x ∈ s.slots, x.st ≠ .empty) → s.power.st < 2 → exec .replayStart s = .next (settle s
      (s.setReg LEDGER.REPLAY_CTRL (putBit (s.reg LEDGER.REPLAY_CTRL) 31 false)))) ∧
    (∀ env, s.replayRuns = false → exec (.replayPacer env) s = .next (settle s s)) ∧
    (∀ env, s.pacerHolds = false → exec (.replayPacer env) s = .next (settle s ((s.countLine.replayEdge env).advancePos)) ∧
      s.countLine.lineTime = (s.lineTime + 1) % 2 ^ 48) ∧
    (s.replayRuns = false ∨ s.reg LEDGER.REPLAY_POS < s.reg LEDGER.REPLAY_FILL → exec .replayEnd s = .next (settle s s)) ∧
    (s.replayRuns = true → s.reg LEDGER.REPLAY_FILL ≤ s.reg LEDGER.REPLAY_POS → risingFrom 0 s.regs = true → ∃ t, exec .replayEnd s = .next t ∧ t.replayRuns = false ∧
      bit (t.reg LEDGER.REPLAY_STATUS) 31 = true ∧ t.mem = s.mem ∧ t.slots = s.slots)

/-- O33. A letter at the head of a ring's stream waits while MAIL.CTRL.EN is 0 or its memory serves no request, and, with its ring taking
no further descriptor, while the mailbag region has no room for it; one that the mailbag keeps lies in that region; one with a bad MAGIC
halts its ring with BAD_KIND; a target beyond 1,023 drops it with BAD_KIND, a failed authentication, one whose key cannot be read
included, with AUTH_FAIL; for an occupied slot of its job a letter at SEQ = E is released and raises E, one behind E or held already is
dropped as a DUPLICATE, one ahead is held and opens a gap, or is dropped with SEQ_GAP where the held letters would exceed REORDER_MAX; a
job without a slot gets a free one, an older job is a DUPLICATE, and with no free slot the letter is dropped with TOO_MANY_JOBS (R46 to
R61, R484). A letter that waits in a side's forward buffer is judged in the same way. -/
def Obligations.LetterArrives : Prop :=
  ∀ (s : State), s.power.st ≠ 4 →
    (∀ src mem, s.enabled pMAIL = false → exec (.letterArrival src mem) s = .next (settle s s)) ∧
    (∀ (n : Fin 32) mem, (s.streamOf n).letters = [] → exec (.letterArrival (.ring n) mem) s = .next (settle s s)) ∧
    (∀ (d : Fin 2) mem, (s.sideOf d).letters = [] → exec (.letterArrival (.side d) mem) s = .next (settle s s)) ∧
    (∀ (n : Fin 32) l rest mem, s.enabled pMAIL = true → (s.streamOf n).letters = l :: rest →
      let t : State := s.setStream n fun x => { x with letters := rest, full := false }
      let named : List Fld := [.f 4 (letterJob l), .f 4 (letterSeq l)]
      let k := t.keyMeets l mem
      let r : State := if s.ownMail l then t.memReport .mailbag mDMA k else t
      (s.mailRoom l = false → exec (.letterArrival (.ring n) mem) s = .next (settle s (s.setStream n fun x => { x with full := true })) ∧
        ((s.setStream n fun x => { x with full := true }).streamOf n).full = decide (n.val < s.dma.stream.length) ∧
        ∀ v : State, (v.streamOf n).full = true → v.mayTake n = false) ∧
      (s.mailRoom l = true → s.served (s.arrivalRegions [] l) = false → exec (.letterArrival (.ring n) mem) s = .next (settle s s)) ∧
      (letterMagic l ≠ 0x4C51 → exec (.letterArrival (.ring n) mem) s = .next (settle s
        ((({ t with mail := { t.mail with halted := t.mail.halted ++ [n.val], haltRing := n.val } } : State).error pMAIL E.BAD_KIND named).raise
          pMAIL 4))) ∧
      (letterMagic l = 0x4C51 → s.mailRoom l = true → s.served (s.arrivalRegions [] l) = true →
        exec (.letterArrival (.ring n) mem) s = .next (settle s ((((r.countForward l).bagSwept.letterIn l (keyFailed k)).bagPut l k.faults))))) ∧
    (∀ (t : State) (l : List Byte) k o, t.slotOfJob (letterJob l) = some k →
      ((t.slotOf k).held.contains l = true ∨ (t.slotOf k).released.any (·.2 == l) = true) → t.bagEntry k (letterSeq l) false = none →
      t.bagPlace (l.take (letterBytes l)).length = [(o, (l.take (letterBytes l)).length)] →
      t.mailBase + o + (l.take (letterBytes l)).length ≤ scratchBase → memWf t.mem = true →
      ∀ fs, writeFails fs = [] → (t.bagPut l fs).readMem (t.mailBase + o) (l.take (letterBytes l)).length = l.take (letterBytes l) ∧
        (t.bagPut l fs).slots = t.slots ∧
        ∀ a, a < t.mailBase + o ∨ t.mailBase + o + (l.take (letterBytes l)).length ≤ a → (t.bagPut l fs).devByte a = t.devByte a) ∧
    (∀ l, (letterTarget l = s.deviceNo ∨ 1023 < letterTarget l → s.countForward l = s) ∧
      (∀ d, letterTarget l ≤ 1023 → letterTarget l ≠ s.deviceNo → s.routeSide (letterTarget l) = some d → (s.sideOf d).up = true →
        s.countForward l = s.bump PEER.FWD_LETTERS 1)) ∧
    (∀ (d : Fin 2) o total rest mem, s.enabled pMAIL = true → (s.sideOf d).letters = (o, total) :: rest →
      let l := s.fwdRead d o total
      let from' := s.fwdRegions d o total
      let v : State := (s.setSide d fun x => { x with letters := rest, fwdLeft := (x.fwdLeft + total) % 2 ^ 32 }).touch from'
      let k := v.keyMeets l mem
      let t : State := v.memReport .mailbag mDMA k
      (s.mailRoom l = false ∨ s.served (s.arrivalRegions from' l) = false → exec (.letterArrival (.side d) mem) s = .next (settle s s)) ∧
      (s.mailRoom l = true → s.served (s.arrivalRegions from' l) = true →
        (letterMagic l = 0x4C51 → exec (.letterArrival (.side d) mem) s = .next (settle s ((t.bagSwept.letterIn l (keyFailed k)).bagPut l k.faults))) ∧
        (letterMagic l ≠ 0x4C51 → exec (.letterArrival (.side d) mem) s = .next (settle s
          (t.error pMAIL E.BAD_KIND [.f 4 (letterJob l), .f 4 (letterSeq l)]))))) ∧
    (∀ (t : State) (l : List Byte) (failed : Bool),
      let named : List Fld := [.f 4 (letterJob l), .f 4 (letterSeq l)]
      let job := letterJob l
      (1023 < letterTarget l → t.letterIn l failed = t.error pMAIL E.BAD_KIND named) ∧
      (letterAuth l = true → failed = true → t.authOk l failed = false) ∧
      (letterTarget l = t.deviceNo →
        (t.authOk l failed = false → t.letterIn l failed = (t.error pMAIL E.AUTH_FAIL named).bump MAIL.AUTH_FAILS 1) ∧
        (t.authOk l failed = true → t.slotOfJob job = none →
          (∀ h, t.mail.highest = some h → precedes h job = false →
            t.letterIn l failed = (t.error pMAIL E.DUPLICATE named).bump MAIL.DUPLICATES 1) ∧
          ((∀ h, t.mail.highest = some h → precedes h job = true) →
            ((∀ k < 4, (t.slotOf k).st ≠ .empty) → t.letterIn l failed = t.error pMAIL E.TOO_MANY_JOBS named) ∧
            (∀ k < 4, t.slots.length = 4 → (t.slotOf k).st = .empty → (∀ i < k, (t.slotOf i).st ≠ .empty) → letterSeq l = 0 →
              letterKind l = kJOB_OPEN →
              (t.letterIn l failed).slotOf k = { job := job, st := .gathering, nextSeq := 1, released := [(0, l)], nextOrd := 1, cells := (t.slotOf k).cells } ∧
              (t.letterIn l failed).mail = { t.mail with highest := some job } ∧ ∀ i < 4, i ≠ k → (t.letterIn l failed).slotOf i = t.slotOf i))) ∧
        (∀ k, t.authOk l failed = true → t.slotOfJob job = some k →
          let x := t.slotOf k
          let d := (letterSeq l + 2 ^ 32 - x.nextSeq) % 2 ^ 32
          (d = 0 → x.held = [] → x.gap = false → (x.st = .gathering ∧ x.nextSeq = 0 ↔ letterKind l = 1) → 1 ≤ letterKind l → letterKind l ≤ 10 →
            t.letterIn l failed = (t.setSlot k fun x => { x with
              nextSeq := (x.nextSeq + 1) % 2 ^ 32, released := x.released ++ [(x.nextOrd, l)], nextOrd := x.nextOrd + 1 }).bump MAIL.LETTERS 1) ∧
          (d = 0 → x.st = .gathering → x.nextSeq = 0 → letterKind l ≠ 1 → t.letterIn l failed = t.error pMAIL E.BAD_KIND named) ∧
          (d = 0 → x.held = [] → x.gap = false → ¬ (x.st = .gathering ∧ x.nextSeq = 0) → (letterKind l < 2 ∨ 10 < letterKind l) →
            t.letterIn l failed = (t.setSlot k fun x => { x with nextSeq := (x.nextSeq + 1) % 2 ^ 32 }).error pMAIL E.BAD_KIND named) ∧
          (2 ^ 31 ≤ d ∨ (0 < d ∧ ∃ m ∈ x.held, letterSeq m = letterSeq l) →
            t.letterIn l failed = (t.error pMAIL E.DUPLICATE named).bump MAIL.DUPLICATES 1) ∧
          (0 < d → d < 2 ^ 31 → (∀ m ∈ x.held, letterSeq m ≠ letterSeq l) →
            (t.reorderMax < sumNat (x.held.map letterBytes) + letterBytes l →
              t.letterIn l failed = ((t.error pMAIL E.SEQ_GAP named).bump MAIL.GAPS 1).raise pMAIL 3) ∧
            (sumNat (x.held.map letterBytes) + letterBytes l ≤ t.reorderMax →
              let u : State := t.setSlot k fun x => { x with held := x.held ++ [l], gap := true }
              (x.gap = true → t.letterIn l failed = u) ∧
              (x.gap = false → t.letterIn l failed = ((u.error pMAIL E.SEQ_GAP named).bump MAIL.GAPS 1).raise pMAIL 3))))))

/-- O34. MAIL_RESUME ends the halt of every halted ring, whose parsing starts again at its next descriptor; DECODER_TAKE gives the lowest
idle enabled decoder the oldest released letter of the slot that goes first, and one that defines what is defined already, a FRANK_DEF
too, is dropped as a DUPLICATE instead; DIRECT_BUFFER_ROOM lets a decoder go on once the direct buffer has room; DECODE_DONE stores and
holds the output of a letter that decodes in order, read from the mailbag region, frees the decoder and records the fault of one that does
not, or whose request was poisoned, drops an ENCLOSURE for which the album has no frames, and waits while its memory serves no request; GO
and ABORT, outside DOZE and NAP, wait for their hand-over edge, late ones with LATE (R46, R74, R75, R93, R95, R98, R130, R178, R484,
R495). -/
def Obligations.MailCommands : Prop :=
  ∀ (s : State), s.power.st ≠ 4 → risingFrom 0 s.regs = true →
    (∃ t, exec .mailResume s = .next t ∧ t.mail = { s.mail with halted := [] } ∧ t.slots = s.slots ∧ t.mem = s.mem ∧
      (s.dma.stream.length = 32 → s.dma.ring.length = 32 → ∀ n ∈ s.mail.halted, n < 32 →
        t.streamOf n = { s.streamOf n with mute := false, part := [] } ∧ t.ringOf n = { s.ringOf n with restart := true, taken := (s.ringOf n).taken.map fun x => { x with drop := true } })) ∧
    (∀ d : Fin 8, (s.enabled pDEC = false ∨ s.idleDecoder ≠ some d.val ∨ s.nextSlot = none) →
      exec (.decoderTake d) s = .next (settle s s)) ∧
    (∀ (d : Fin 8) k ord l rest, s.enabled pDEC = true → s.idleDecoder = some d.val → s.nextSlot = some k →
      (s.slotOf k).released = (ord, l) :: rest →
      let u : State := s.setSlot k fun x => { x with released := rest }
      let j : DecJob := { slot := k, ord := ord, bytes := l }
      (∀ h, letterKind l = kSTAMP → u.isDuplicate k l = false → stampHead l = some h → stampWidthOk l h = true → letterAux l ≤ 4095 →
        let need := framesOf h.stride (letterRaw l / h.stride)
        (need ≤ u.freeFrames.length → exec (.decoderTake d) s = .next (settle s (u.setDec d (some { j with frames := u.freeFrames.take need })))) ∧
        (u.freeFrames.length < need → exec (.decoderTake d) s = .next (settle s
          (((u.error pALBUM E.ALBUM_FULL [.f 4 (letterJob l), .f 4 (letterSeq l)]).bump ALBUM.FULLS 1).raise pALBUM 2)))) ∧
      (letterKind l = kGLYPH_SET → u.isDuplicate k l = false → letterAux l ≤ 3 → ceilDiv (letterRaw l) 4096 ≤ u.freePages.length →
        exec (.decoderTake d) s = .next (settle s
          (u.setDec d (some { j with frames := u.freePages.take (ceilDiv (letterRaw l) 4096) })))) ∧
      (letterKind l ≠ kSTAMP → letterKind l ≠ kGLYPH_SET → letterKind l ≠ kDIRECT → u.isDuplicate k l = false →
        exec (.decoderTake d) s = .next (settle s (u.setDec d (some { j with pre := u.headerFault l })))) ∧
      (letterKind l = kFRANK_DEF → (u.slotOf k).fields.any (·.num == letterAux l) = true → u.isDuplicate k l = true) ∧
      (u.isDuplicate k l = true → u.nextSlot = none → exec (.decoderTake d) s = .next (settle s
        ((u.error pMAIL E.DUPLICATE [.f 4 (letterJob l), .f 4 (letterSeq l)]).bump MAIL.DUPLICATES 1))) ∧
      (letterKind l = kDIRECT → letterAux l ≤ 7 → letterRaw l ≤ s.directSize → exec (.decoderTake d) s = .next (settle s
        (u.setDec d (some (if s.directSize < s.directUsed + letterRaw l then { j with waits := true }
          else { j with place := findPlace s.directSize s.directPlaces (letterRaw l) })))))) ∧
    (∀ (d : Fin 8) j, s.decOf d = some j →
      (j.waits = true → s.directUsed + letterRaw j.bytes ≤ s.directSize →
        exec (.directBufferRoom d) s = .next (settle s (s.setDec d (some
          { j with waits := false, place := findPlace s.directSize s.directPlaces (letterRaw j.bytes) })))) ∧
      (j.waits = false ∨ s.directSize < s.directUsed + letterRaw j.bytes → exec (.directBufferRoom d) s = .next (settle s s)) ∧
      (j.done = true ∨ j.waits = true ∨ s.enabled pDEC = false → ∀ mem, exec (.decodeDone d mem) s = .next (settle s s)) ∧
      (j.done = false → j.waits = false → s.enabled pDEC = true →
        let l := s.letterOf j
        let r := decodePayload (letterPayload l) (letterRaw l) (letterCheck l) (letterQlc l) (letterKind l == kSTAMP)
        let need := framesOf (fld r.out 2 2) (fld r.out 4 2)
        let framed := letterKind l = kENCLOSURE ∧ 16 ≤ r.out.length
        let i : DecJob := if framed then { j with frames := s.freeFrames.take need } else j
        (s.served (s.decRegions i r.out) = false → ∀ mem, exec (.decodeDone d mem) s = .next (settle s s)) ∧
        (s.served (s.decRegions i r.out) = true → s.bagBad j = false →
          (∀ f mem, j.pre = some f → letterKind j.bytes = kFENCE → s.mail.decs.length = 8 → ∃ t, exec (.decodeDone d mem) s = .next t ∧
            t.decOf d = none ∧ t.reg DEC.FAULT_INFO = (f.code * 2 ^ 16 + d.val * 2 ^ 8 + kFENCE) % 2 ^ 32 ∧ t.slots = s.slots ∧ t.mem = s.mem) ∧
          (j.pre = none → s.scr.bad = [] → r.code = E.NONE ∨ r.code = E.ZERO → s.payloadFault j.slot j.bytes r.out = none →
            (framed → need ≤ s.freeFrames.length) → exec (.decodeDone d {}) s = .next (settle s
              ((((s.touch (s.bagRegions (s.bagEntry j.slot (letterSeq j.bytes) false))).countOut d r.out.length).storeOut i r.out {}).setDec d
                (some { i with done := true, out := r.out })))) ∧
          (j.pre = none → s.scr.bad = [] → framed → s.freeFrames.length < need → exec (.decodeDone d {}) s = .next (settle s
            ((((s.touch (s.bagRegions (s.bagEntry j.slot (letterSeq j.bytes) false))).countOut d r.out.length).setDec d none).albumFull l))) ∧
          (∀ mem, (∀ g ∈ mem.faults, isPoison g = false) → j.pre = none → r.code ≠ E.NONE → r.code ≠ E.ZERO → letterKind j.bytes = kFENCE → letterKind l = kFENCE → s.mail.decs.length = 8 →
            ∃ t, exec (.decodeDone d mem) s = .next t ∧ t.decOf d = none ∧ t.reg DEC.FAULT_INFO = (r.code * 2 ^ 16 + d.val * 2 ^ 8 + kFENCE) % 2 ^ 32 ∧
              bit (t.reg (IRQ_RAW pDEC)) 2 = true ∧ t.slots = s.slots ∧ t.mem = s.mem) ∧
          (∀ a w, j.pre = none → r.code = E.NONE → letterKind j.bytes = kFENCE → letterKind l = kFENCE → s.mail.decs.length = 8 →
            ∃ t, exec (.decodeDone d { faults := [.poisoned a w] }) s = .next t ∧ t.decOf d = none ∧
              t.reg DEC.FAULT_INFO = (E.CHECK_MISMATCH * 2 ^ 16 + d.val * 2 ^ 8 + kFENCE) % 2 ^ 32 ∧ t.slots = s.slots)))) ∧
    (∀ d : Fin 8, s.decOf d = none → exec (.directBufferRoom d) s = .next (settle s s) ∧
      ∀ mem, exec (.decodeDone d mem) s = .next (settle s s)) ∧
    (∀ (k : Fin 4) (late : Bool),
      (s.power.st < 2 → s.replaying = true → exec (.mailGo k late) s = .next (settle s s) ∧ exec (.mailAbort k late) s = .next (settle s s)) ∧
      (s.power.st < 2 → s.replaying = false →
        let u (abort : Bool) : State := { s with mail := { s.mail with cmds := s.mail.cmds ++ [{ slot := k, abort := abort, late := late }] } }
        exec (.mailGo k late) s = .next (settle s (if late then (u false).setLate pMAIL else u false)) ∧
        exec (.mailAbort k late) s = .next (settle s (if late then (u true).setLate pMAIL else u true))))

/-- O35. A letter command has no effect while the decoder holds no letter of its kind whose earlier letters are all visible; when it has,
the decoder becomes free and: FENCE raises the supply mark of a job without an end; the first JOB_CLOSE sets the end to the larger of
LINES and the composition frontier, and the supply mark with it, and where that withdraws the planned line the planner picks the line of
the coming line time anew; JOB_OPEN within the budgets stages its job with D all ones, and one outside them is refused; STAMP adds a READY
stamp with its check value; a POSTING_TABLE of one posting whose stamp is READY and whose line is not composed yet adds it; DIRECT adds
its rows, which stay where they lie in the direct buffer; GLYPH_SET adds its set; FRANK_DEF before any repeat is assigned adds its field
with its counter at START mod M; ENCLOSURE is bound to its cell; COUNTERSIGN_BATCH takes its countersigns in order, those of a hand-over
cycle as late; each reads its output where the mailbag region holds it, waits while that memory serves no request, and faults where such a
read is poisoned (R52, R66 to R70, R76 to R80, R119, R123, R128, R131, R158 to R163, R177, R258, R267, R484). -/
def Obligations.LettersVisible : Prop :=
  ∀ (s : State) (d : Fin 8), s.power.st ≠ 4 → risingFrom 0 s.regs = true →
    (s.visible d kJOB_OPEN = none → ∀ mem, exec (.jobOpen d mem) s = .next (settle s s)) ∧
    (s.visible d kSTAMP = none → exec (.stamp d) s = .next (settle s s)) ∧
    (s.visible d kPOSTING_TABLE = none → ∀ mem, exec (.postingTable d mem) s = .next (settle s s)) ∧
    (s.visible d kDIRECT = none → exec (.direct d) s = .next (settle s s)) ∧
    (s.visible d kENCLOSURE = none → exec (.enclosure d) s = .next (settle s s)) ∧
    (s.visible d kFRANK_DEF = none → ∀ mem, exec (.frankDef d mem) s = .next (settle s s)) ∧
    (s.visible d kGLYPH_SET = none → exec (.glyphSet d) s = .next (settle s s)) ∧
    (s.visible d kJOB_CLOSE = none → ∀ mem, exec (.jobClose d mem) s = .next (settle s s)) ∧
    (s.visible d kFENCE = none → ∀ mem, exec (.fence d mem) s = .next (settle s s)) ∧
    (s.visible d kCOUNTERSIGN_BATCH = none → ∀ late mem, exec (.countersignBatch d late mem) s = .next (settle s s)) ∧
    (∀ (k : Nat) (mem : MemRep) (f : State → DecJob → State) (j : DecJob), s.visible d k = some j →
      let rs := s.bagRegions (s.bagEntry j.slot (letterSeq j.bytes) true)
      (s.served rs = false → s.apply d k mem f = s) ∧
      (s.served rs = true → rs ≠ [] → mem.faults.any isPoison = true → s.apply d k mem f =
        ((s.touch rs).memReport .mailbag mDMA mem).decFault d j { code := E.CHECK_MISMATCH, off := letterLength j.bytes } j.out)) ∧
    ∀ j : DecJob,
      let e := s.bagEntry j.slot (letterSeq j.bytes) true
      s.served (s.bagRegions e) = true →
      let w : State := if (s.bagRegions e).isEmpty then s else s.touch (s.bagRegions e)
      let u : State := w.setDec d none
      let x := s.slotOf j.slot
      let out := if (s.bagRegions e).isEmpty then j.out else w.bagRead e j.out
      (s.visible d kFENCE = some j → exec (.fence d {}) s = .next (settle s (u.setSlot j.slot fun x =>
        if x.ends.isSome then x else { x with supply := max x.supply (fld out 0 6) }))) ∧
      (s.visible d kJOB_CLOSE = some j → x.ends.isSome = true → exec (.jobClose d {}) s = .next (settle s u)) ∧
      (s.visible d kJOB_CLOSE = some j → x.ends = none → s.slots.length = 4 → j.slot < 4 →
        let v := u.setEnd j.slot (fld out 0 6)
        (v.slotOf j.slot).ends = some (max (fld out 0 6) x.composed) ∧ (v.slotOf j.slot).supply = max (fld out 0 6) x.composed ∧
          v.decOf d = none ∧ v.mem = s.mem ∧
          (v.comp.plan = none ∨ v.checkPlan.comp.plan ≠ none → exec (.jobClose d {}) s = .next (settle s v)) ∧
          (v.comp.plan ≠ none → v.checkPlan.comp.plan = none →
            exec (.jobClose d {}) s = .next (settle s (v.checkPlan.planFor (s.lineTime + 1) {})))) ∧
      (s.visible d kJOB_OPEN = some j →
        let y : Slot := { x with params := fixedPayload 800 out }
        (u.badGrid y = false → u.overBudget y = false → s.slots.length = 4 → j.slot < 4 →
          ∃ t, exec (.jobOpen d {}) s = .next t ∧ t.slotOf j.slot = { y with st := .staged, damage := 2 ^ 48 - 1 } ∧ t.mem = s.mem ∧
            (x.st ≠ .staged → bit (t.reg (IRQ_RAW pMAIL)) 2 = true)) ∧
        (u.badGrid y = true → exec (.jobOpen d {}) s = .next (settle s
          ((((u.error pMAIL E.BAD_CELL_GRID [.f 4 (letterJob j.bytes), .f 4 (letterSeq j.bytes)]).bump MAIL.REFUSED 1).raise pMAIL
            5).releaseSlot j.slot))) ∧
        (u.badGrid y = false → u.overBudget y = true → exec (.jobOpen d {}) s = .next (settle s
          ((((u.error pMAIL E.BUDGET_EXCEEDED [.f 4 (letterJob j.bytes), .f 4 (letterSeq j.bytes)]).bump MAIL.REFUSED 1).raise pMAIL
            5).releaseSlot j.slot)))) ∧
      (∀ q, s.visible d kSTAMP = some j → stampHead j.bytes = some q → j.bad = false → exec (.stamp d) s = .next (settle s
        ((u.setSlot j.slot fun x => { x with stamps := x.stamps ++
          [{ num := letterAux j.bytes, st := 2, w := q.stride, h := letterRaw j.bytes / q.stride, frames := j.frames,
             check := crc32c (pitchRows q.stride (letterRaw j.bytes / q.stride) out) }] }).bump ALBUM.EXPANDED 1))) ∧
      (∀ q, s.visible d kPOSTING_TABLE = some j → out.length = 24 → s.slots.length = 4 → j.slot < 4 → s.inFlight < 16384 →
        (postingAt out 0).count ≠ 0 → x.stampOf (postingAt out 0).stamp = some q → q.st = 2 → x.composed ≤ (postingAt out 0).line →
        1 ≤ q.h → ∃ t, exec (.postingTable d {}) s = .next t ∧
          t.slotOf j.slot = { x with postings := x.postings ++ [{ postingAt out 0 with h := q.h }] } ∧ t.mem = s.mem ∧
          s.inFlight + 1 ≤ t.reg TILE.POSTINGS_PEAK) ∧
      (s.visible d kPOSTING_TABLE = some j → out.length < 24 → s.inFlight ≤ 16384 → exec (.postingTable d {}) s = .next (settle s
        (u.setReg TILE.POSTINGS_PEAK (max (s.reg TILE.POSTINGS_PEAK) s.inFlight)))) ∧
      (s.visible d kDIRECT = some j → fld out 8 4 ≠ 0 → fld out 12 3 ≠ 0 → x.composed < fld out 0 6 + fld out 12 3 →
        exec (.direct d) s = .next (settle s (u.setSlot j.slot fun x => { x with directs := x.directs ++
          [{ layer := letterAux j.bytes, op := fld out 15 1, line := fld out 0 6, column := fld out 6 2, width := fld out 8 4,
             lines := fld out 12 3, place := j.place }] }))) ∧
      (s.visible d kGLYPH_SET = some j → letterRaw j.bytes ≠ 0 → exec (.glyphSet d) s = .next (settle s
        (u.setSlot j.slot fun x => { x with glyphs := x.glyphs ++ [{ num := letterAux j.bytes, pages := j.frames, len := letterRaw j.bytes }] }))) ∧
      (s.visible d kFRANK_DEF = some j → x.assigned = 0 → x.fieldOf (letterAux j.bytes) = none →
        letterRaw j.bytes = 0 ∨ fld (fixedPayload 56 out) 16 8 < 2 ^ x.across →
        let o := fixedPayload 56 out
        exec (.frankDef d {}) s = .next (settle s (u.setSlot j.slot fun x => { x with fields := x.fields ++
          [{ num := letterAux j.bytes, defn := o,
             counter := fld o 24 8 % (if fld o 40 8 = 0 then 2 ^ 64 else fld o 40 8) }] }))) ∧
      (s.visible d kFRANK_DEF = some j → (x.fieldOf (letterAux j.bytes)).isSome = true → exec (.frankDef d {}) s = .next (settle s
        ((u.error pMAIL E.DUPLICATE [.f 4 (letterJob j.bytes), .f 4 (letterSeq j.bytes)]).bump MAIL.DUPLICATES 1))) ∧
      (s.visible d kENCLOSURE = some j → letterRaw j.bytes ≠ 0 → x.seen.contains (fld out 0 1, fld out 8 4) = false →
        x.enclosureOk out = true → x.assigned = 0 → exec (.enclosure d) s = .next (settle s
          (u.setSlot j.slot fun x => { x with
            seen := x.seen ++ [(fld out 0 1, fld out 8 4)]
            enclosures := x.enclosures ++ [{ field := fld out 0 1, cell := fld out 8 4, w := fld out 2 2, h := fld out 4 2,
                                             frames := j.frames, check := letterCheck j.bytes, bad := j.bad }] }))) ∧
      (s.visible d kENCLOSURE = some j → letterRaw j.bytes ≠ 0 → x.seen.contains (fld out 0 1, fld out 8 4) = true →
        exec (.enclosure d) s = .next (settle s
          ((u.error pMAIL E.DUPLICATE [.f 4 (letterJob j.bytes), .f 4 (letterSeq j.bytes)]).bump MAIL.DUPLICATES 1))) ∧
      (s.visible d kCOUNTERSIGN_BATCH = some j → out.length = 16 → ∀ late, exec (.countersignBatch d late {}) s = .next (settle s
        (u.takeSign out 1 (letterJob j.bytes) late)))

/-- O36. COUNTERSIGN_TAKE does nothing with no ring countersign waiting, while SEAL.CTRL forbids it or in a replay; else it takes the
oldest one, which acts here or, for another device, goes to the peers; PEER_COUNTERSIGN acts on the one it carries, but in a replay it
only records it, with the outcome of one that was dropped (that outcome is the model's choice, log 30). One that names no cell of a staged
job's window or that R260 rejects is dropped; one whose cell's decision edge has passed is late; one for a cell signed before, or VOID or
SUSPECT, is dropped; a void voids its cell with HOST_VOID; a seal that agrees confirms an AWAITING cell and one that does not voids it
with SEAL_DISAGREE; for a FREE cell it is held and the entry becomes EARLY (R258 to R260, R266 to R269). -/
def Obligations.Countersigns : Prop :=
  ∀ (s : State), s.power.st ≠ 4 →
    (∀ late, s.dma.countersigns = [] ∨ bit (s.reg (CTRL pSEAL)) 1 = false ∨ s.replaying = true →
      exec (.countersignTake late) s = .next (settle s s)) ∧
    (∀ b rest, s.dma.countersigns = b :: rest → bit (s.reg (CTRL pSEAL)) 1 = true → s.replaying = false →
      let u : State := { s with dma := { s.dma with countersigns := rest } }
      (csTarget b = s.deviceNo → exec (.countersignTake false) s = .next (settle s (u.countersign b 0 0 s.lineTime s.lineTime))) ∧
      (csTarget b = s.deviceNo → s.csDueNow b = false → exec (.countersignTake true) s = .next (settle s { u with sealU := { u.sealU with
        deferred := u.sealU.deferred ++ [{ bytes := b, origin := 0, letterJob := 0, lt := s.lineTime }] } })) ∧
      (csTarget b ≠ s.deviceNo → s.routeSide (csTarget b) = none → ∀ late, exec (.countersignTake late) s = .next (settle s
        (((u.bump PEER.UNROUTED 1).raise pPEER 5).event pPEER V.UNROUTED [])))) ∧
    (∀ b, s.replaying = false → exec (.peerCountersign b false) s = .next (settle s
      ((s.inboxTaken 4 b).countersign b 2 0 s.lineTime s.lineTime))) ∧
    (∀ b late, s.replaying = true → exec (.peerCountersign b late) s = .next (settle s
      ((((s.inboxTaken 4 b).post {
        src := pSEAL, code := V.COUNTERSIGN, aux := some s.lineTime
        flds := [.f 4 (csJob b), .f 4 (csCell b), .f 4 (csSeal b), .f 1 (csFlags b), .f 1 5] }).bump LEDGER.LIVE_SUPPRESSED 1)))) ∧
    (∀ b origin letterJob lt edge,
      let v : State := s.bump SEAL.CS_TAKEN 1
      let done (x : State) (outcome : Nat) : State := x.post {
        src := pSEAL, code := V.COUNTERSIGN, aux := some lt
        flds := [.f 4 (csJob b), .f 4 (csCell b), .f 4 (csSeal b), .f 1 (csFlags b), .f 1 outcome] }
      let t := s.countersign b origin letterJob lt edge
      (s.slotOfJob (csJob b) = none ∨ csReserved b = true ∨ (origin = 1 ∧ csJob b ≠ letterJob) → t = done (v.bump SEAL.CS_DROPPED 1) 5) ∧
      (∀ n c, s.csSlot b origin letterJob = some n → (s.slotOf n).liveCell (csCell b) = some c →
        let early := ∀ e, s.decisionAt (s.slotOf n) c = some e → edge < e
        (∀ e, s.decisionAt (s.slotOf n) c = some e → e ≤ edge → t = done ((v.bump SEAL.CS_LATE 1).raise pSEAL 6) 6) ∧
        (early → c.signed = true → t = done (v.bump SEAL.CS_DROPPED 1) 5) ∧
        (early → c.signed = false → c.st = 3 ∨ c.st = 4 ∨ (c.st = 2 ∧ bit (csFlags b) 0 = false) →
          t = done (v.bump SEAL.CS_DROPPED 1) 4) ∧
        (early → c.signed = false → c.st = 1 → bit (csFlags b) 0 = false → c.sealVal = some (csSeal b) →
          t = done ((v.setCell n c.idx fun c => { c with signed := true, st := 2 }).bump SEAL.CS_CONFIRMED 1) 0) ∧
        (early → c.signed = false → c.st = 1 → c.committed = false → bit (csFlags b) 0 = false → c.sealVal ≠ some (csSeal b) →
          (t.slotOf n).liveCell c.idx = some { c with signed := true, st := 3, reason := rSEAL_DISAGREE, masked := true } ∧
          t.mem = s.mem ∧ bit (t.reg (IRQ_RAW pSEAL)) 2 = true) ∧
        (early → c.signed = false → (c.st = 1 ∨ c.st = 2) → c.committed = false → bit (csFlags b) 0 = true →
          (t.slotOf n).liveCell c.idx = some { c with signed := true, st := 3, reason := rHOST_VOID, masked := true } ∧
          t.mem = s.mem ∧ bit (t.reg (IRQ_RAW pSEAL)) 2 = true)) ∧
      (∀ n, s.csSlot b origin letterJob = some n → (s.slotOf n).liveCell (csCell b) = none → (s.slotOf n).entry (csCell b) = none →
        t = done (v.setSlot n fun x => { x with cells := x.cells ++
          [{ idx := csCell b, st := 7, signed := true, heldSeal := csSeal b, heldVoid := bit (csFlags b) 0 }] }) 3) ∧
      (∀ n c, s.csSlot b origin letterJob = some n → (s.slotOf n).liveCell (csCell b) = none → (s.slotOf n).entry (csCell b) = some c →
        c.st = 7 → t = done (v.bump SEAL.CS_DROPPED 1) 5))

/-- O37. A void of a live cell that is not committed makes it VOID with its cause and counts it; of a committed one makes it SUSPECT with
LATE_VOID; of one that is VOID or SUSPECT keeps its state and first cause, and writes a further cause once; in every case its position is
masked on the lines to come. A SUSPECT marking makes an AWAITING or CONFIRMED cell SUSPECT with its cause and raises the interrupt. Every
marking of a shared cell, and every void that reaches a committed one, goes to its peers. No other cell of the slot changes, and nothing
happens to a cell that is not live (R247, R254, R261, R262). -/
def Obligations.VoidsAndMarkings : Prop :=
  ∀ (s : State) (n : Fin 4) (idx cause : Nat),
    (∀ c o, s.pairSides c.pos = [] → s.sendMark n c cause o = s) ∧
    ((s.slotOf n).liveCell idx = none → s.voidCell n idx cause = s ∧ s.suspectCell n idx cause = s) ∧
    (∀ c, (s.slotOf n).liveCell idx = some c →
      let t := s.voidCell n idx cause
      let u := s.suspectCell n idx cause
      (∀ i, i ≠ idx → (t.slotOf n).liveCell i = (s.slotOf n).liveCell i ∧ (u.slotOf n).liveCell i = (s.slotOf n).liveCell i) ∧
      t.mem = s.mem ∧ u.mem = s.mem ∧
      ((c.st = 1 ∨ c.st = 2) →
        (c.committed = false → (t.slotOf n).liveCell idx = some { c with st := 3, reason := cause, masked := true } ∧
          t.reg SEAL.CELLS_VOIDED = min (s.reg SEAL.CELLS_VOIDED + 1) 0xFFFFFFFF) ∧
        (c.committed = true → (t.slotOf n).liveCell idx = some { c with st := 4, reason := rLATE_VOID, masked := true } ∧
          bit (t.reg (IRQ_RAW pSEAL)) 3 = true) ∧
        (u.slotOf n).liveCell idx = some { c with st := 4, reason := cause } ∧ bit (u.reg (IRQ_RAW pSEAL)) 3 = true ∧
        (s.pairSides c.pos = [] → u = (s.setCell n idx fun c => { c with st := 4, reason := cause }).raise pSEAL 3)) ∧
      ((c.st = 3 ∨ c.st = 4) →
        (c.committed = true → t.peers = (s.sendMark n c rLATE_VOID none).peers) ∧ u.peers = (s.sendMark n c cause none).peers ∧
        (cause = c.reason ∨ c.later.contains cause = true → u = s.sendMark n c cause none ∧ (t.slotOf n).liveCell idx = some { c with masked := true }) ∧
        (cause ≠ c.reason → c.later.contains cause = false →
          u = ((s.setCell n idx fun c => { c with later := c.later ++ [cause] }).event pSEAL V.LATER_CAUSE
            [.f 4 (s.slotOf n).job, .f 4 idx, .f 1 cause]).sendMark n c cause none ∧
          (t.slotOf n).liveCell idx = some { c with later := c.later ++ [cause], masked := true })))

/-- O38. DECISION_EDGE does nothing where no cell is due; where one cell of the slots is due, an AWAITING one becomes VOID with
LATE_COUNTERSIGN and an unshared CONFIRMED one stays so, and neither is decided again. VERDICT does nothing where nothing is due; where
the verdict of one cell is due, a CONFIRMED cell becomes WRITTEN and any other REJECTED with its cause, the window moves past it, and the
outcome is recorded, counted and queued for REJECT as CTRL and REJECT_CFG say; and a DRAINING slot whose last echo is due becomes EMPTY
with its JOB_DONE record (R64, R71, R257, R276, R279). -/
def Obligations.CellEdges : Prop :=
  ∀ (s : State), s.power.st ≠ 4 →
    let decides (n : Nat) : List Cell := (s.slotOf n).cells.filter fun c => c.live && !c.decided && match s.decisionAt (s.slotOf n) c with
      | none => false
      | some t => decide (t ≤ s.lineTime)
    let judged (n : Nat) : List Cell := match (s.slotOf n).start with
      | none => []
      | some t0 => (s.slotOf n).liveCells.filter fun c => (match (s.slotOf n).ends with
          | none => true
          | some e => decide ((s.slotOf n).firstLine c < e)) && decide (s.verdictAt t0 ((s.slotOf n).lastLine c) ≤ s.lineTime)
    let last (n : Nat) : Bool := match (s.slotOf n).st, (s.slotOf n).start, (s.slotOf n).ends with
      | .draining, some t0, some e => decide ((if e = 0 then t0 else s.verdictAt t0 (e - 1)) ≤ s.lineTime)
      | _, _, _ => false
    ((∀ n < 4, decides n = []) → exec .decisionEdge s = .next (settle s s)) ∧
    (∀ (k : Fin 4) c, (∀ n < 4, decides n = if n = k.val then [c] else []) →
      (c.st = 1 → c.committed = false → (s.slotOf k).liveCell c.idx = some c → ∃ t d, exec .decisionEdge s = .next t ∧
        (t.slotOf k).liveCell c.idx = some d ∧ d.st = 3 ∧ d.reason = rLATE_COUNTERSIGN ∧ d.decided = true ∧ d.masked = true ∧ t.mem = s.mem) ∧
      (c.st = 2 → s.pairSides c.pos = [] → (s.slotOf k).liveCell c.idx = some c → exec .decisionEdge s = .next (settle s
        (s.setCell k c.idx fun c => { c with decided := true, localV := some 0 })))) ∧
    ((∀ n < 4, judged n = [] ∧ last n = false) → exec .verdict s = .next (settle s s.headSync)) ∧
    (∀ (k : Fin 4) c, (∀ n < 4, judged n = (if n = k.val then [c] else []) ∧ last n = false) → bit (s.reg (CTRL pSEAL)) 2 = false →
      let st := if c.st = 2 then 5 else 6
      let reason := if c.st = 2 then 0 else c.reason
      let u : State := (s.setCell k c.idx fun c => { c with st := st }).setSlot k fun x => { x with base := (c.idx + 1) % 2 ^ 32 }
      exec .verdict s = .next (settle s ((u.event pSEAL V.CELL_VERDICT
        [.f 4 (s.slotOf k).job, .f 4 c.idx, .f 1 st, .f 1 reason]).bump (if c.st = 2 then SEAL.CELLS_WRITTEN else SEAL.CELLS_REJECTED)
          1).headSync)) ∧
    (∀ (k : Fin 4) c, (∀ n < 4, judged n = (if n = k.val then [c] else []) ∧ last n = false) → bit (s.reg (CTRL pSEAL)) 2 = true →
      s.replaying = false → s.sealU.rejects.length < 256 → c.st ≠ 2 → ∃ t, exec .verdict s = .next t ∧
        t.sealU.rejects = s.sealU.rejects ++ [{ typ := 0, reason := c.reason, job := (s.slotOf k).job, cell := c.idx }] ∧
        (t.slotOf k).base = (c.idx + 1) % 2 ^ 32 ∧ t.mem = s.mem) ∧
    (∀ k : Fin 4, (∀ n < 4, judged n = [] ∧ (last n = true ↔ n = k.val)) → exec .verdict s = .next (settle s
      ((s.event pMAIL V.JOB_DONE [.f 4 (s.slotOf k).job]).releaseSlot k).headSync))

/-- O39. ECHO_SETTLE settles every segment that is lost or whose echo is four line times old: a Good one is only counted and no longer
outstanding; of one that is not, every cell it crosses becomes SUSPECT with the cause of its outcome; a segment whose echo is not due
stays. REJECT_RECORD_DONE sends the front record with its preamble, device, type, reason, job, cell and check, counts it and, where
records were dropped, queues one LOST record with their number; what REJECT_CFG holds then is in use from there on; KEEPALIVE sends a
keepalive record only when the KEEPALIVE in use is not 0, REJECT is on, nothing is queued and no replay runs (R272 to R284). -/
def Obligations.EchoesAndRejects : Prop :=
  ∀ (s : State), s.power.st ≠ 4 →
    ((∀ g ∈ s.segs, g.lost = false ∧ s.lineTime < g.lt + 4) → exec .echoSettle s = .next (settle s s)) ∧
    (∀ g rest, s.segs = g :: rest → (∀ h ∈ rest, h.lost = false ∧ s.lineTime < h.lt + 4) → g.lt + 4 ≤ s.lineTime → s.replaying = false →
      (g.lost = false → g.echo = some 0 → exec .echoSettle s = .next (settle s (({ s with segs := rest } : State).bump SEAL.SEGMENTS 1))) ∧
      (∀ n idx c, (g.lost = true ∨ g.echo ≠ some 0) → g.cells = [(n, idx)] → (s.slotOf n).liveCell idx = some c → c.st = 1 ∨ c.st = 2 →
        ∃ t, exec .echoSettle s = .next t ∧ t.segs = rest ∧ t.mem = s.mem ∧ (t.slotOf n).liveCell idx = some { c with
          st := 4
          reason := if g.lost then rFRAME_LOST else if g.echo = none then rECHO_MISSING else rECHO_MISMATCH })) ∧
    (s.sealU.rejects = [] ∨ s.replaying = true → exec .rejectRecordDone s = .next (settle s s)) ∧
    (∀ r rest, s.sealU.rejects = r :: rest → s.replaying = false → exec .rejectRecordDone s = .next (settle s
      { (s.emit (.reject (s.rejectBits r))).bump SEAL.REJECT_RECORDS 1 with sealU := { s.sealU with
          rejects := if s.sealU.dropped = 0 then rest else rest ++ [{ typ := 2, reason := 0, job := 0, cell := s.sealU.dropped }]
          dropped := 0
          cfg := s.reg SEAL.REJECT_CFG } })) ∧
    (bits s.sealU.cfg 11 0 = 0 ∨ bit (s.reg (CTRL pSEAL)) 2 = false ∨ s.sealU.rejects ≠ [] ∨ s.replaying = true →
      exec .keepalive s = .next (settle s s)) ∧
    (bits s.sealU.cfg 11 0 ≠ 0 → bit (s.reg (CTRL pSEAL)) 2 = true → s.sealU.rejects = [] → s.replaying = false →
      exec .keepalive s = .next (settle s
        ((s.emit (.reject (s.rejectBits { typ := 1, reason := 0, job := 0, cell := 0 }))).bump SEAL.REJECT_RECORDS 1))) ∧
    (∀ r : Reject, r.typ < 4 → r.reason < 256 → r.cell < 2 ^ 32 → s.rejectBits r < 2 ^ 80 ∧ bits (s.rejectBits r) 79 72 = 0xD5 ∧
      bits (s.rejectBits r) 71 62 = s.deviceNo ∧ bits (s.rejectBits r) 61 60 = r.typ ∧
      (r.typ = 0 → bits (s.rejectBits r) 59 52 = r.reason) ∧ (r.typ ≠ 1 → bits (s.rejectBits r) 43 12 = r.cell))

/-- O40. A VERDICT message or a MARK that names no shared cell is counted late, or has no effect; a local verdict that comes in time is
kept, and one after its edge is late; a combined verdict is kept, and one that disagrees with this device's own marks the cell; MARK makes
the cell SUSPECT with PEER_SUSPECT; OVERLAP_COMBINE forms WRITE only when this device and every side said WRITE, else it voids the cell;
OVERLAP_DEADLINE marks a shared cell whose peer's combined verdict has not come; both do nothing when no shared cell is due (R242 to
R248). -/
def Obligations.SharedCells : Prop :=
  ∀ (s : State), s.power.st ≠ 4 →
    (∀ (d : Fin 2) body, s.sharedCell d body = none →
      (s.replaying = false → exec (.verdictMessage d body) s = .next (settle s
        (((s.inboxTaken 1 body).bump PLACE.LATE_VERDICTS 1).event pPLACE V.LATE_VERDICT []))) ∧
      exec (.mark d body) s = .next (settle s (s.inboxTaken 2 body))) ∧
    (∀ (d : Fin 2) body n c, s.sharedCell d body = some (n, c) → s.slots.length = 4 → (s.slotOf n).liveCell c.idx = some c →
      (s.replaying = false → fld body 9 1 = 0 →
        (s.cellEdgePast n c (s.shareEdge (s.slotOf n) d) 0 = true → exec (.verdictMessage d body) s = .next (settle s
          (((s.inboxTaken 1 body).bump PLACE.LATE_VERDICTS 1).event pPLACE V.LATE_VERDICT []))) ∧
        (s.cellEdgePast n c (s.shareEdge (s.slotOf n) d) 0 = false → exec (.verdictMessage d body) s = .next (settle s
          (((s.inboxTaken 1 body).setCell n c.idx fun c => { c with share := modAt c.share d fun q => { q with localV := some (fld body 10 1) } }).event pPLACE
            V.VERDICT [.f 4 (s.slotOf n).job, .f 4 c.idx, .f 1 d.val, .f 1 (fld body 10 1 + 4)])))) ∧
      (s.replaying = false → fld body 9 1 ≠ 0 →
        ((c.sideOf d).settled = true → exec (.verdictMessage d body) s = .next (settle s
          (((s.inboxTaken 1 body).bump PLACE.LATE_VERDICTS 1).event pPLACE V.LATE_VERDICT []))) ∧
        ((c.sideOf d).settled = false → c.combV = none → exec (.verdictMessage d body) s = .next (settle s
          (((s.inboxTaken 1 body).setCell n c.idx fun c => { c with share := modAt c.share d fun q => { q with combV := some (fld body 10 1) } }).event pPLACE
            V.VERDICT [.f 4 (s.slotOf n).job, .f 4 c.idx, .f 1 d.val, .f 1 (fld body 10 1 + 6)]))) ∧
        (∀ a, (c.sideOf d).settled = false → c.combV = some a → a ≠ fld body 10 1 → c.share.length = 2 → c.st = 1 ∨ c.st = 2 →
          ∃ t e, exec (.verdictMessage d body) s = .next t ∧ (t.slotOf n).liveCell c.idx = some e ∧ e.st = 4 ∧ e.reason = rOVERLAP ∧
            (e.sideOf d).settled = true ∧ bit (t.reg (IRQ_RAW pPLACE)) 4 = true)) ∧
      (c.st = 1 ∨ c.st = 2 → ∃ t, exec (.mark d body) s = .next t ∧
        (t.slotOf n).liveCell c.idx = some { c with st := 4, reason := rPEER_SUSPECT } ∧ bit (t.reg (IRQ_RAW pSEAL)) 3 = true) ∧
      (c.st = 3 ∨ c.st = 4 → rPEER_SUSPECT = c.reason ∨ c.later.contains rPEER_SUSPECT = true → exec (.mark d body) s = .next (settle s
        ((s.inboxTaken 2 body).sendMark n c rPEER_SUSPECT (some d.val))))) ∧
    (let due (n : Nat) : List Cell := s.sharedDue n fun t c sides => c.combV.isNone && c.decided &&
        decide (t ≤ s.lineTime + sides.foldl (fun m d => min m (s.shareEdge (s.slotOf n) d)) 63)
     let lapsed (n : Nat) : List Cell := s.sharedDue n fun t _ _ => decide (t + (s.rows - 1) * s.spacing ≤ s.lineTime)
     ((∀ n < 4, due n = []) → exec .overlapCombine s = .next (settle s s)) ∧
     ((∀ n < 4, lapsed n = []) → exec .overlapDeadline s = .next (settle s s)) ∧
     (∀ (k : Fin 4) c, (∀ n < 4, due n = if n = k.val then [c] else []) → (s.slotOf k).liveCell c.idx = some c → (c.st = 1 ∨ c.st = 2) →
       c.committed = false → c.share.length = 2 →
       let write := c.localV = some 0 ∧ ∀ d ∈ s.pairSides c.pos, (c.sideOf d).localV = some 0
       (write → (∀ d ∈ s.pairSides c.pos, (c.sideOf d).combV = none) → ∃ t, exec .overlapCombine s = .next t ∧
         (t.slotOf k).liveCell c.idx = some { c with combV := some 0, committed := true } ∧ t.mem = s.mem) ∧
       (¬ write → (∀ d ∈ s.pairSides c.pos, (c.sideOf d).combV = none) → ∃ t, exec .overlapCombine s = .next t ∧
         (t.slotOf k).liveCell c.idx = some { c with combV := some 1, committed := true, st := 3, reason := rOVERLAP_VOID, masked := true } ∧
         t.mem = s.mem)) ∧
     (∀ (k : Fin 4) c, (∀ n < 4, lapsed n = if n = k.val then [c] else []) → (s.slotOf k).liveCell c.idx = some c →
       let missing := (s.pairSides c.pos).filter fun d => (c.sideOf d).combV.isNone && !(c.sideOf d).settled
       (missing = [] → exec .overlapDeadline s = .next (settle s s)) ∧
       (missing ≠ [] → c.st = 1 ∨ c.st = 2 → ∃ t e, exec .overlapDeadline s = .next t ∧ (t.slotOf k).liveCell c.idx = some e ∧ e.st = 4 ∧
         e.reason = rOVERLAP ∧ bit (t.reg (IRQ_RAW pPLACE)) 4 = true ∧ t.mem = s.mem)))

/-- O41. ENCODER_EDGE with both phases as they were changes nothing; with one phase changed it counts one edge, forward or back as the
phases and DIR say, and in ENCODER mode captures the error; with both changed it is an ENCODER_FAULT and no count. While the web runs
forward ENC_INDEX keeps the count, and while Z_EN is 1 it checks the count since the last index edge against Z_COUNTS. LOOP_SAMPLE hands
over the registers of the loop and, while EN is 1, moves v by the feed-forward and the captured error within 0 and RATE_MAX and takes c
(R291 to R297). -/
def Obligations.EncoderAndLoop : Prop :=
  ∀ (s : State), s.power.st ≠ 4 → risingFrom 0 s.regs = true →
    (exec (.encoderEdge s.web.encA s.web.encB) s = .next (settle s s)) ∧
    (∀ a b up, (s.web.encA = a ↔ s.web.encB ≠ b) →
      up = ((if s.web.encA = a then a == b else a != b) != bit (s.active WEB.ENC_CFG) 8) →
      let q := s.web.count + if up then 1 else -1
      let w : Web := { s.web with encA := a, encB := b, count := q, fwd := up, zAt := if up then s.web.zAt else none }
      let u : State := ({ s with web := w } : State).setReg WEB.ENC_COUNT (uInt 32 q)
      (s.webOn srcENCODER = false → exec (.encoderEdge a b) s = .next (settle s u)) ∧
      (s.webOn srcENCODER = true → ∃ t, exec (.encoderEdge a b) s = .next t ∧ t.web.count = q ∧ t.web.fwd = up ∧
        t.web.capture = some u.encoderError ∧ t.reg WEB.TRACK_ERR = uInt 32 u.encoderError ∧ t.web.pg = s.web.pg ∧ t.mem = s.mem)) ∧
    (let e : State := { s with web := { s.web with encA := !s.web.encA, encB := !s.web.encB } }
     exec (.encoderEdge (!s.web.encA) (!s.web.encB)) s = .next (settle s
       (((e.error pWEB E.ENCODER_FAULT []).bump WEB.ENC_FAULTS 1).timelineFault 1))) ∧
    (s.web.fwd = false → exec .encIndex s = .next (settle s s)) ∧
    (s.web.fwd = true →
      let z : State := { s with web := { s.web with zAt := some s.web.count } }
      (s.web.zAt = none ∨ bit (s.active WEB.ENC_CFG) 9 = false → exec .encIndex s = .next (settle s z)) ∧
      (∀ k, s.web.zAt = some k → uInt 32 (s.web.count - k) = s.active WEB.Z_COUNTS → exec .encIndex s = .next (settle s z)) ∧
      (∀ k, s.web.zAt = some k → bit (s.active WEB.ENC_CFG) 9 = true → uInt 32 (s.web.count - k) ≠ s.active WEB.Z_COUNTS → exec .encIndex s = .next (settle s
        (((z.error pWEB E.ENCODER_FAULT []).bump WEB.ENC_FAULTS 1).timelineFault 1)))) ∧
    (let u := (s.takeShadows .loop).takePending .loop
     (s.enabled pWEB = false → exec .loopSample s = .next (settle s u)) ∧
     (s.enabled pWEB = true → s.source ≠ srcPOSTCARD → u.source ≠ srcPOSTCARD →
       let cfg := u.active WEB.LOOP_CFG
       let clocks := 4 * bits cfg 9 0
       let err := s.web.capture.getD 0
       let v := s.web.v + rneDiv (sInt 32 (u.active WEB.ACCEL) * clocks * 2 ^ 48) (10 ^ 18) + rneDiv (err * 2 ^ 32) (2 ^ bits cfg 28 24)
       let vmax : Int := min (bits (s.reg WEB.RATE_MAX) 18 0) 450000 * 2 ^ 48 / 10 ^ 9
       ∃ t, exec .loopSample s = .next t ∧ t.web.v = max 0 (min v vmax) ∧
         t.web.c = rneDiv (err * 2 ^ 32) (2 ^ bits cfg 19 16 * max 1 clocks) ∧ t.web.capture = none ∧ t.web.pg = s.web.pg ∧
         t.reg WEB.RATE = rateOf (max 0 (min v vmax)) ∧ t.lineTime = s.lineTime ∧ t.mem = s.mem))

/-- O42. TRIGGER_EDGE has no effect outside TRIGGER mode or on the other edge; one that comes before MIN_GAP is counted as ignored and
makes no line event; one that is accepted ends the run of ignored ones, makes a line event and captures the error. POSTCARD_SEND has no
effect while TX is 0, EN is 0 or the source is POSTCARD; else it sends the next SEQ with the position, rate and local time, over the chain
or over Ethernet. POSTCARD takes a card that its SEQ lets in and none other; COASTING is signalled once (R302 to R306). -/
def Obligations.TriggersAndPostcards : Prop :=
  ∀ (s : State), s.power.st ≠ 4 →
    (∀ r gap env, s.webOn srcTRIGGER = false ∨ bit (s.reg WEB.TRIG_CFG) 24 = r → exec (.triggerEdge r gap env) s = .next (settle s s)) ∧
    (∀ r gap env, s.webOn srcTRIGGER = true → bit (s.reg WEB.TRIG_CFG) 24 ≠ r →
      (gap < max 2222 (bits (s.reg WEB.TRIG_CFG) 11 0) → s.jobsQuiet = true → ∃ t, exec (.triggerEdge r gap env) s = .next t ∧
        t.lineTime = s.lineTime ∧ t.reg WEB.TRIG_IGNORED = min (s.reg WEB.TRIG_IGNORED + 1) 0xFFFFFFFF ∧ t.web.trigRun = true ∧
        t.web.fault = s.web.fault ∧ t.slots = s.slots ∧ t.mem = s.mem) ∧
      (max 2222 (bits (s.reg WEB.TRIG_CFG) 11 0) ≤ gap →
        let u := (s.closeCause V.TRIG_IGNORED 0).faultEnds 2
        let v := ({ u with web := { u.web with trigRun := false, trigFault := false } } : State).lineEvent env
        exec (.triggerEdge r gap env) s = .next (settle s (v.captured v.triggerError)))) ∧
    (bit (s.reg WEB.PC_CFG) 25 = false ∨ s.enabled pWEB = false ∨ s.source = srcPOSTCARD → exec .postcardSend s = .next (settle s s)) ∧
    (bit (s.reg WEB.PC_CFG) 25 = true → s.enabled pWEB = true → s.source ≠ srcPOSTCARD →
      let seq := (s.reg WEB.PC_SEQ + 1) % 2 ^ 32
      let body := s.cardBody seq
      let u : State := ({ s with web := { s.web with owed := false } } : State).setReg WEB.PC_SEQ seq
      fld body 0 4 = seq ∧ body.length = 32 ∧ fld body 16 8 = s.pos16 ∧ fld body 8 4 = s.time.ns % 2 ^ 32 ∧ bit (fld body 6 1) 2 = s.web.owed ∧
      (bit (s.reg WEB.PC_CFG) 24 = true → exec .postcardSend s = .next (settle s (u.ethPostcard body))) ∧
      (bit (s.reg WEB.PC_CFG) 24 = false → exec .postcardSend s = .next (settle s (u.peerBroadcast 3 body)))) ∧
    (∀ b, s.webOn srcPOSTCARD = false → exec (.postcard b) s = .next (settle s (s.inboxTaken 3 b))) ∧
    (∀ b, s.webOn srcPOSTCARD = true →
      let u := s.inboxTaken 3 b
      let card : Card := { seq := fld b 0 4, time := fld b 8 4 * 2 ^ 16 + fld b 12 2, pos := fld b 16 8, vel := sInt 32 (fld b 24 4),
                           acc := sInt 32 (fld b 28 4) }
      let took (x : State) : State := (({ x with web := { x.web with card := some card, cardFirst := false, coasting := false } } : State).setReg
        WEB.PC_SEQ (fld b 0 4)).faultEnds 6
      (s.web.card = none ∨ s.web.cardFirst = true → bit (fld b 6 1) 2 = false → exec (.postcard b) s = .next (settle s (took u))) ∧
      (∀ k, s.web.card = some k → s.web.cardFirst = false → precedes k.seq (fld b 0 4) = false →
        exec (.postcard b) s = .next (settle s u)) ∧
      (∀ k, s.web.card = some k → s.web.cardFirst = false → precedes k.seq (fld b 0 4) = true → bit (fld b 6 1) 2 = false →
        (fld b 0 4 = (k.seq + 1) % 2 ^ 32 → exec (.postcard b) s = .next (settle s (took u))) ∧
        (fld b 0 4 ≠ (k.seq + 1) % 2 ^ 32 → exec (.postcard b) s = .next (settle s
          (took ((u.error pWEB E.POSTCARD_LOST []).bump WEB.PC_GAPS 1))))) ∧
      (s.web.card = none → bit (fld b 6 1) 2 = true → exec (.postcard b) s = .next (settle s ((took u).timelineFault 8)))) ∧
    (s.webOn srcPOSTCARD = false ∨ s.web.coasting = true → exec .coasting s = .next (settle s s)) ∧
    (s.webOn srcPOSTCARD = true → s.web.coasting = false →
      let u := (({ s with web := { s.web with coasting := true } } : State).error pWEB E.POSTCARD_LOST []).bump WEB.PC_GAPS 1
      (s.web.lasting.contains 6 = true → exec .coasting s = .next (settle s u)) ∧
      (s.web.lasting.contains 6 = false → exec .coasting s = .next (settle s
        (({ u with web := { u.web with lasting := u.web.lasting ++ [6] } } : State).timelineFault 6))))

/-- O43. STOPPED is signalled once with its record; PRESS_RUN_FALL raises a timeline fault only while a slot is LEADING, WRITING or
DRAINING, once, and PRESS_RUN_RISE wakes the device and ends its condition; CLEAR, outside DOZE and NAP (O7), ends the fault only when
every lasting condition has ended; TIMELINE writes the local time and the rate every TL_PERIOD line times; a timeline fault sets FAULT and
OWED, writes its record with the position, raises the interrupt and is counted, and where no slot has a job composed or leading changes
nothing else (R312 to R317, R660). -/
def Obligations.StopsAndFaults : Prop :=
  ∀ (s : State), s.power.st ≠ 4 →
    (s.web.stopped = true → exec .stopped s = .next (settle s s)) ∧
    (s.web.stopped = false → exec .stopped s = .next (settle s
      ((({ s with web := { s.web with stopped := true } } : State).raise pWEB 3).event pWEB V.STOP []))) ∧
    (let d : State := { s with web := { s.web with press := false } }
     (s.jobsQuiet = true ∨ s.web.lasting.contains 7 = true → exec .pressRunFall s = .next (settle s d.headSync)) ∧
     (s.jobsQuiet = false → s.web.lasting.contains 7 = false → exec .pressRunFall s = .next (settle s
       (({ d with web := { d.web with lasting := d.web.lasting ++ [7] } } : State).timelineFault 7).headSync))) ∧
    (let w := s.wakes wakePRESS_RUN
     exec .pressRunRise s = .next (settle s
      ({ w with web := { w.web with press := true, lasting := w.web.lasting.filter (· != 7) } } : State).headSync)) ∧
    (s.web.lasting = [] → s.power.st < 2 → exec .clear s = .next (settle s { s with web := { s.web with fault := false } })) ∧
    (s.web.lasting ≠ [] → s.power.st < 2 → exec .clear s = .next (settle s s)) ∧
    (let n := bits (s.reg WEB.TL_PERIOD) 15 0
     (s.enabled pWEB = false ∨ n = 0 ∨ s.lineTime % n ≠ 0 → exec .timeline s = .next (settle s s)) ∧
     (s.enabled pWEB = true → n ≠ 0 → s.lineTime % n = 0 → exec .timeline s = .next (settle s
       (s.event pWEB V.TIMELINE [.f 8 (s.time.epoch * 2 ^ 32 + s.time.ns), .f 4 (s.reg WEB.RATE)])))) ∧
    (∀ code, s.replaying = false → (∀ n < 4, (s.slotOf n).st ≠ .leading ∧ (s.slotOf n).st ≠ .writing ∧ (s.slotOf n).take = none) →
      let e := s.event pWEB V.TIMELINE_FAULT [.f 1 code, .f 8 s.pos16]
      s.timelineFault code = (({ e with web := { e.web with fault := true, owed := true } } : State).raise pWEB 2).bump WEB.TL_FAULTS 1)

/-- O44. LINE_EVENT has no effect while WEB.CTRL.EN is 0 or a replay runs. Else, outside TRIGGER mode, the generator passes the event (pg
stands at least at it, hw counts it) and ALONG moves by at most 1 toward its target; the segments of the line time that ends have been
sent where the event says so; LINE_TIME counts, with a LINE_WRAP record when its low half wraps, the spacing to the next line event
starts, and samples and open tallies are a line time older; then, in this order: the run after a stop, LINE_TRIG_OUT, tallies that end,
deferred countersigns, the rate that the planner judges by and the zones whose F has come, fire markers, abandoned segments and their
settlement, the hand-over of the line's registers, the marks of a health gap and the segments of the line time, DRIVE, the job slots, and
the work of the line time (R287, R289, R296, R301, R302, R309, R312, R333 to R337, R35). After LINE_EVENT with WEB.CTRL.EN at 1 and no
replay, LINE_TIME is one more than before, modulo 2^48, whatever else happens in the line time (R287). -/
def Obligations.LineEdges : Prop :=
  ((∀ (s : State) env, s.power.st ≠ 4 →
     (s.enabled pWEB = false ∨ s.replaying = true → exec (.lineEvent env) s = .next (settle s s)) ∧
     (s.enabled pWEB = true → s.replaying = false →
       let u := ((if s.source = srcTRIGGER then s else s.lineReached.alongStep).linePassed env.unsent).countLine
       let v := u.webRuns.trigOut.closeLineTallies.takeDeferred.edgeBegins
       let w := (v.sendMarkers.abandon env.unsent).settleLost.handOverLine.sendSegments.drive.jobEdge
       exec (.lineEvent env) s = .next (settle s ((w.lineWork env).paceRequest 0).headSync))) ∧
   (∀ s : State,
     let u := s.countLine
     u.lineTime = (s.lineTime + 1) % 2 ^ 48 ∧ u.mem = s.mem ∧ u.slots = s.slots ∧ u.web = { s.web with gap := 0 } ∧
     let v : State := { s with
       lineTime := (s.lineTime + 1) % 2 ^ 48, web := { s.web with gap := 0 }
       samples := s.samples.map fun p => p.map fun p => { p with age := p.age + 1 }
       led := { s.led with tallies := s.led.tallies.map fun t => { t with age := t.age + 1 } } }
     (u.lineTime % 2 ^ 32 ≠ 0 → u = v) ∧
     (u.lineTime % 2 ^ 32 = 0 → u = v.event pLEDGER V.LINE_WRAP [.f 2 (u.lineTime / 2 ^ 32)])) ∧
   (∀ s : State, s.edgeBegins = { s with
     comp := { s.comp with rate := s.reg WEB.RATE }
     loops := { s.loops with zone := s.loops.zone.map fun q => { q with early := false } } }) ∧
   (∀ s : State,
     let u := s.lineReached
     u.web.hw = (s.web.hw + 1) % 2 ^ 48 ∧ s.web.pg ≤ u.web.pg ∧ ((s.web.hw : Int) + 1) * 2 ^ 48 ≤ u.web.pg + s.qeOffset ∧
     (s.web.pg = u.web.pg ∨ ((s.web.hw : Int) + 1) * 2 ^ 48 = u.web.pg + s.qeOffset) ∧ u.mem = s.mem) ∧
   (∀ s : State,
     let target := sInt 16 (s.active WEB.ALONG)
     let u := s.alongStep
     (s.web.along = target → u = s) ∧ (s.web.along < target → u = { s with web := { s.web with along := s.web.along + 1 } }) ∧
     (target < s.web.along → u = { s with web := { s.web with along := s.web.along - 1 } })) ∧
   (∀ s : State,
     (bit (s.reg WEB.TRIG_OUT) 31 = false → s.trigOut = s) ∧
     (bit (s.reg WEB.TRIG_OUT) 31 = true → s.trigOut = s.emit (.lineTrig (8 * max 1 (bits (s.reg WEB.TRIG_OUT) 7 0)))) ∧
     (s.web.stopped = false → s.webRuns = s) ∧
     (s.web.stopped = true → s.webRuns =
       (({ s with web := { s.web with stopped := false } } : State).raise pWEB 4).event pWEB V.RUNNING []))) ∧
  (∀ (s : State) env, s.power.st ≠ 4 → s.enabled pWEB = true → s.replaying = false →
     ∃ t, exec (.lineEvent env) s = .next t ∧ t.lineTime = (s.lineTime + 1) % 2 ^ 48)

/-- O45. A MOVE to the current position, and a RELATIVE of 0 steps, whose commit R461 does not refuse, completes with DONE and ZERO in
RESULT, without CUT: no step goes out, POS stays, and the axis is IDLE, so that an AXIS_STEP after it issues none. -/
def Obligations.NoStepMove : Prop :=
  ∀ (s : State) (a : Fin 4) (c : Instr), s.power.st ≠ 4 → s.axes.length = 4 → risingFrom 0 s.regs = true → s.enabled pAXIS = true → (s.axisOf a).st = 0 →
    s.jobsQuiet = true → (s.spliceAxis ≠ a.val ∨ s.web.spliceN = true) → s.reg (AXIS.CMIN a) ≤ s.reg (AXIS.C0 a) →
    (c = .move a ∧ (s.axisOf a).homed = true ∧ sInt 32 (s.reg (AXIS.TARGET a)) = (s.axisOf a).pos ∧ 0 ≤ (s.axisOf a).pos ∧
        (s.axisOf a).pos ≤ s.reg (AXIS.TRAVEL a)) ∨
      (c = .relative a ∧ sInt 32 (s.reg (AXIS.TARGET a)) = 0) →
    ∃ t, exec c s = .next t ∧ t.readAxis (AXIS.RESULT a) = some (2 ^ 31 + E.ZERO) ∧ (t.axisOf a).pos = (s.axisOf a).pos ∧
      (t.axisOf a).st = 0 ∧ (∀ x d n, Out.step x d n ∈ t.out → Out.step x d n ∈ s.out) ∧
      exec (.axisStep a) t = .next (settle t t) ∧ bit (t.reg (IRQ_RAW pAXIS)) 2 = true ∧ t.mem = s.mem

/-- O46. MOVE and RELATIVE that R461 allows start a ramp of the steps between, in their direction, from C0, with the parameters of that
moment; HOME starts TRAVEL + EXTRA steps downward at HOME_INTERVAL with HOMED 0; an action that R461 does not allow is a refused commit;
STOP, outside DOZE and NAP (O7), makes a MOVE or RELATIVE decelerate, ends a HOME with CUT, and has no effect on an IDLE, STOPPING or
splicing axis; no other axis changes (R460, R461, R463, R465 to R467). -/
def Obligations.AxisActions : Prop :=
  ∀ (s : State) (a : Fin 4), s.power.st ≠ 4 → s.axes.length = 4 → risingFrom 0 s.regs = true →
    let x := s.axisOf a
    let target := sInt 32 (s.reg (AXIS.TARGET a))
    let cfg := s.reg (AXIS.CFG a)
    let took : Axis := { x with
      cfg := none, recur := bit cfg 0, inv := bit cfg 1, duty := max 1 (bits cfg 7 4), rest := false, pulse := max 10 (bits cfg 23 16)
      c0 := s.reg (AXIS.C0 a), cmin := s.reg (AXIS.CMIN a)
      accel := s.reg (AXIS.ACCEL a), issued := 0, n := 0, interval := 0, thenSplice := false }
    let free := s.enabled pAXIS = true ∧ x.st = 0 ∧ s.jobsQuiet = true ∧ (s.spliceAxis ≠ a.val ∨ s.web.spliceN = true) ∧
      s.reg (AXIS.CMIN a) ≤ s.reg (AXIS.C0 a)
    let clear (d : Int) := (0 < d → x.hiLatch = false) ∧ (d < 0 → x.loLatch = false)
    let inRange := x.homed = true ∧ 0 ≤ target ∧ target ≤ s.reg (AXIS.TRAVEL a)
    let staged (op : Nat) : State := (s.setReg (AXIS.MODE a) op).setReg (COMMIT pAXIS) (putField (s.reg (COMMIT pAXIS)) 7 0 (a.val + 1))
    (free → inRange → clear (target - x.pos) → target ≠ x.pos → ∃ t, exec (.move a) s = .next t ∧ t.axisOf a = { took with
      st := 1, op := 0, dist := (target - x.pos).natAbs, dir := decide (x.pos < target), c := s.reg (AXIS.C0 a) * 256 } ∧
      t.mem = s.mem ∧ ∀ b : Fin 4, b ≠ a → t.axisOf b = s.axisOf b) ∧
    (free → clear target → target ≠ 0 → ∃ t, exec (.relative a) s = .next t ∧ t.axisOf a = { took with
      st := 1, op := 2, dist := target.natAbs, dir := decide (0 < target), c := s.reg (AXIS.C0 a) * 256 } ∧
      t.mem = s.mem ∧ ∀ b : Fin 4, b ≠ a → t.axisOf b = s.axisOf b) ∧
    (free → ∃ t, exec (.home a) s = .next t ∧ t.axisOf a = { took with
      st := 2, op := 1, dist := s.reg (AXIS.TRAVEL a) + max 1 (bits (s.reg (AXIS.HOME_CFG a)) 15 0), dir := false, homed := false
      c := s.reg (AXIS.HOME_INTERVAL a) * 256 } ∧ t.mem = s.mem ∧ ∀ b : Fin 4, b ≠ a → t.axisOf b = s.axisOf b) ∧
    (¬ (free ∧ inRange ∧ clear (target - x.pos)) → exec (.move a) s = .next (settle s
      (((staged 0).setBits (COMMIT pAXIS) 0x100).error pAXIS E.COMMIT_REJECT []))) ∧
    (¬ (free ∧ clear target) → exec (.relative a) s = .next (settle s
      (((staged 2).setBits (COMMIT pAXIS) 0x100).error pAXIS E.COMMIT_REJECT []))) ∧
    (¬ free → exec (.home a) s = .next (settle s (((staged 1).setBits (COMMIT pAXIS) 0x100).error pAXIS E.COMMIT_REJECT []))) ∧
    (x.st = 1 → s.power.st < 2 → exec (.axisStop a) s = .next (settle s (s.setAxis a fun x => { x with st := 3 }))) ∧
    (x.st = 2 → ∃ t, exec (.axisStop a) s = .next t ∧ t.axisOf a = { x with
      st := 0, interval := 0, thenSplice := false, result := 2 ^ 31 + 2 ^ 30 + E.NONE } ∧ bit (t.reg (IRQ_RAW pAXIS)) 2 = true ∧ t.mem = s.mem) ∧
    (x.st = 0 ∨ 3 ≤ x.st → s.power.st < 2 → exec (.axisStop a) s = .next (settle s s))

/-- O47. AXIS_STEP does nothing while EN is 0, the axis clock is stopped or the axis is IDLE; else a step goes out in the level of DIR and
POS moves by 1, and after the last step the action ends, HOME with POS 0 and HOMED 1; a change of a limit input to active opens a window
of DEBOUNCE, and a change within it, or to inactive, is no event; the event of a masked low limit latches nothing; any other latches,
records and counts the trip and stops what runs, with HOMED 0. LIMIT_CLEAR, outside DOZE and NAP (O7), clears each latch named whose own
input has been inactive for DEBOUNCE. SPLICE wakes the device and begins a splice move from rest above SAFE_POS, decelerates a MOVE first,
and moves nothing when it is off, homing, or not above; SPLICE_N_RISE moves nothing; DIR_REST sets the rest level only on the idle splice
axis; EN is at full current, but for the duty of HOME_DUTY while homing, by the CFG in force, which a write during an action does not
change (R456, R459, R465 to R478). -/
def Obligations.AxisMotion : Prop :=
  ∀ (s : State) (a : Fin 4), s.power.st ≠ 4 → s.axes.length = 4 →
    let x := s.axisOf a
    (s.enabled pAXIS = false ∨ s.power.stopped.contains 6 = true ∨ x.st = 0 → exec (.axisStep a) s = .next (settle s s)) ∧
    (s.enabled pAXIS = true → s.power.stopped.contains 6 = false → x.st ≠ 0 → -2 ^ 31 < x.pos → x.pos < 2 ^ 31 - 1 →
      (x.issued + 1 < x.dist → x.st ≠ 3 → x.n < 2 ^ 20 → ∃ t, exec (.axisStep a) s = .next t ∧
        (t.axisOf a).pos = x.pos + (if x.dir then 1 else -1) ∧ (t.axisOf a).issued = x.issued + 1 ∧ (t.axisOf a).st = x.st ∧
        (t.axisOf a).interval = min 16777215 (max 500 ((t.axisOf a).c / 256)) ∧ (x.st = 2 ∨ x.issued = 0 → (t.axisOf a).c = x.c) ∧
        s.out ++ [.step a (x.dir != x.inv) (10 * x.pulse)] <+: t.out ∧ t.mem = s.mem) ∧
      (x.dist ≤ x.issued + 1 → x.st = 2 → ∃ t, exec (.axisStep a) s = .next t ∧ (t.axisOf a).pos = 0 ∧ (t.axisOf a).homed = true ∧
        (t.axisOf a).st = 0 ∧ (t.axisOf a).result = 2 ^ 31 + E.NONE ∧ bit (t.reg (IRQ_RAW pAXIS)) 2 = true) ∧
      (x.dist ≤ x.issued + 1 → x.st = 1 → x.op ≠ 3 → x.thenSplice = false → ∃ t, exec (.axisStep a) s = .next t ∧
        (t.axisOf a).pos = x.pos + (if x.dir then 1 else -1) ∧ (t.axisOf a).homed = x.homed ∧ (t.axisOf a).st = 0 ∧
        (t.axisOf a).result = 2 ^ 31 + E.NONE ∧ bit (t.reg (IRQ_RAW pAXIS)) 2 = true)) ∧
    (∀ (hi active : Bool) us, let l := ((s.axisOf a).limit hi).atLeast us
      (l.level = active → exec (.limitTrip a hi active us) s = .next (settle s (s.setLimit a hi l))) ∧
      (l.level ≠ active → active = false ∨ l.win ≠ 0 → exec (.limitTrip a hi active us) s = .next (settle s
        (s.setLimit a hi { l with level := active, age := 0 }))) ∧
      (l.level = false → l.win = 0 → hi = false → s.loMasked a = true → exec (.limitTrip a hi true us) s = .next (settle s
        (s.setLimit a hi { level := true, age := 0, win := s.debounce a })))) ∧
    (∀ (l : LimitIn) us, (l.atLeast us).level = l.level ∧ min 255000 (us * 1000) ≤ max l.age (l.atLeast us).age ∧
      (l.win ≤ us * 1000 - l.age → (l.atLeast us).win = 0)) ∧
    (∀ (hi : Bool) us, ((x.limit hi).atLeast us).level = false → ((x.limit hi).atLeast us).win = 0 → (hi = true ∨ s.loMasked a = false) →
      ∃ t, exec (.limitTrip a hi true us) s = .next t ∧ (t.axisOf a).limit hi = { level := true, age := 0, win := s.debounce a } ∧
      (t.axisOf a).st = 0 ∧ (t.axisOf a).pos = x.pos ∧ (t.axisOf a).hiLatch = (x.hiLatch || hi) ∧ (t.axisOf a).loLatch = (x.loLatch || !hi) ∧
      bit (t.reg (IRQ_RAW pAXIS)) 3 = true ∧ t.reg (AXIS.TRIPS a) = min (s.reg (AXIS.TRIPS a) + 1) 0xFFFFFFFF ∧
      (x.st = 0 → (t.axisOf a).homed = x.homed ∧ (t.axisOf a).result = x.result) ∧
      (x.st ≠ 0 → x.op ≠ 3 → (t.axisOf a).homed = false ∧
        (t.axisOf a).result = 2 ^ 31 + 2 ^ 30 + (if x.st = 2 then E.LIMIT_DURING_HOME else E.LIMIT_TRIP))) ∧
    (∀ hi lo hiUs loUs, s.power.st < 2 → let y : Axis := { x with hi := x.hi.atLeast hiUs, lo := x.lo.atLeast loUs }
      let clears (named : Bool) (l : LimitIn) : Bool := named && !l.level && decide (s.debounce a ≤ l.age)
      exec (.limitClear a hi lo hiUs loUs) s = .next (settle s (s.setAxis a fun _ =>
        { y with hiLatch := x.hiLatch && !clears hi y.hi, loLatch := x.loLatch && !clears lo y.lo }))) ∧
    (let w := s.wakes wakeSPLICE
     w.jobsQuiet = true →
      let y := w.axisOf a
      let d : State := { w with web := { w.web with spliceN := false } }
      let noted : State := ((d.event pAXIS V.SPLICE [.f 4 (uInt 32 y.pos), .lt w.lineTime]).raise pAXIS 4).bump AXIS.SPLICES 1
      (w.spliceEn = false → exec .splice s = .next (settle s d.headSync)) ∧
      (w.spliceEn = true → w.spliceAxis = a.val →
        (y.st = 2 ∨ y.st = 4 ∨ (y.st = 0 ∧ y.homed = false) ∨ (y.st = 0 ∧ y.pos ≤ w.safePos) → exec .splice s = .next (settle s noted.headSync)) ∧
        (y.st = 1 ∨ y.st = 3 → exec .splice s = .next (settle s (noted.setAxis a fun x => { x with st := 3, thenSplice := true }).headSync)) ∧
        (y.st = 0 → y.homed = true → w.safePos < y.pos → ∃ t, exec .splice s = .next t ∧ (t.axisOf a).st = 4 ∧ (t.axisOf a).dir = false ∧
          (t.axisOf a).dist = (y.pos - w.safePos).toNat ∧ (t.axisOf a).c = w.active AXIS.SPLICE_C0 * 256 ∧
          (t.axisOf a).cmin = w.active AXIS.SPLICE_CMIN ∧ (t.axisOf a).recur = true ∧ (t.axisOf a).pos = y.pos ∧ t.mem = w.mem))) ∧
    (exec .spliceNRise s = .next (settle s { s with web := { s.web with spliceN := true, lasting := s.web.lasting.filter (· != 9) } })) ∧
    (s.spliceEn = true → s.spliceAxis = a.val → x.st = 0 → exec (.dirRest a) s = .next (settle s
      (s.setAxis a fun x => { x with dir := false, inv := bit (s.axisCfg a) 1, rest := true }))) ∧
    (s.spliceEn = false ∨ s.spliceAxis ≠ a.val ∨ x.st ≠ 0 → exec (.dirRest a) s = .next (settle s s)) ∧
    (s.enabled pAXIS = false → s.axisEn a = 0) ∧
    (s.enabled pAXIS = true → x.st = 2 → s.axisEn a = x.duty) ∧
    (s.enabled pAXIS = true → x.st ≠ 2 → bit (s.axisCfg a) 2 = true ∨ x.st ≠ 0 ∨ (s.spliceEn = true ∧ s.spliceAxis = a.val) → s.axisEn a = 16) ∧
    (s.enabled pAXIS = true → x.st = 0 → bit (s.axisCfg a) 2 = false → s.spliceEn = false ∨ s.spliceAxis ≠ a.val → s.axisEn a = 0)

/-- O48. A zone that computes takes, with the active bank, the candidates c of its three loops by R439, each between OMIN and OMAX; the
winner w has the smallest of them and the lowest number among equals; u is its candidate; its integrator integrates unless u stands at a
limit that the error drives into, the losing ones fall to u at most, all stay within the limits; and out is u times the reciprocal of the
supply, saturated to 0 and 32,767. Nothing else changes (R439, R440). -/
def Obligations.ControlLaw : Prop :=
  ∀ (s : State) (z : Fin 64), s.loops.zone.length = 64 →
    let q := s.zoneOf z
    let b := s.loops.bank
    let omin : Int := bits (s.reg (LOOP.OUT_LIM b)) 14 0
    let omax : Int := bits (s.reg (LOOP.OUT_LIM b)) 30 16
    let sp := sat (rneDiv (bits (s.active (LOOP.ZONE_REF z)) 15 0 * bits (s.reg WEB.RATE) 18 0) (max 1 (bits (s.active LOOP.RATE_REF) 18 0))) 0 32767
    let lim := s.active (LOOP.ZONE_LIM z)
    let e (l : Nat) : Int := sat (if l = 0 then sp - sInt 16 q.power else if l = 1 then sInt 16 (bits lim 31 16) - sInt 16 q.temp
      else sInt 16 (bits lim 15 0) - sInt 16 q.current) (-32768) 32767
    let ffa := sat (rneDiv (sInt 16 (s.reg (LOOP.KA b)) * sInt 32 (s.active WEB.ACCEL)) (2 ^ 20)) (-32768) 32767
    let a (l : Nat) : Int := rneDiv (e l * s.gain l (e l)) 4096
    let c (l : Nat) : Int := sat (q.integ.getD l 0 / 2 ^ 16 + rneDiv (a l * bits (s.reg (LOOP.KP b l)) 15 0) 4096 + if l = 0 then ffa else 0)
      omin omax
    let t := s.zoneCompute z
    let r := t.zoneOf z
    omin ≤ omax →
    r.winner < 3 ∧ r.u = c r.winner ∧ (∀ l < 3, r.u ≤ c l) ∧ (∀ l < r.winner, r.u < c l) ∧ omin ≤ r.u ∧ r.u ≤ omax ∧
    (∀ l < 3, r.integ.getD l 0 = sat
      (if l = r.winner then
        if (r.u = omax ∧ 0 < e l) ∨ (r.u = omin ∧ e l < 0) then q.integ.getD l 0
        else q.integ.getD l 0 + a l * bits (s.reg (LOOP.KI b l)) 15 0
       else min (q.integ.getD l 0) (r.u * 2 ^ 16)) (omin * 2 ^ 16) (omax * 2 ^ 16)) ∧
    (r.out : Int) = sat (rneDiv (r.u * s.recip (sInt 16 q.supply)) (2 ^ 14)) 0 32767 ∧
    r = { q with integ := r.integ, u := r.u, winner := r.winner, out := r.out } ∧
    t = s.setZone z fun _ => r

/-- O49. ZONE_SAMPLE makes a committed bank active, hands over LOOP's registers and counts the boundary, and every zone below ZONES counts
misses and stills; while EN is 1 each of them, in order, takes the STARTs and RESTARTs that wait only with both counts at 0, and then
stays OFF, computes, holds or ramps toward ZONE_SAFE by at most RAMP. START and RESTART are kept for the boundary, late ones of a hand-
over cycle for the one after it, and have no effect while EN is 0; STOP makes the zone OFF at once with output 0 (R36, R437, R438, R443,
R447, R448). -/
def Obligations.ZonesAtBoundaries : Prop :=
  ∀ (s : State), s.power.st ≠ 4 →
    (let u := ((s.bankSwap.takeShadows .zone).takePending .zone).bump LOOP.SAMPLES 1
     let v := (List.range u.zones).foldl (fun s z => s.setZone z Zone.count) u
     (u.enabled pLOOP = false → exec .zoneSample s = .next (settle s v)) ∧
     (u.enabled pLOOP = true → exec .zoneSample s = .next (settle s
       ((List.range u.zones).foldl State.zoneBoundary { v with loops := { v.loops with sample := (v.loops.sample + 1) % 2 ^ 32 } })))) ∧
    (∀ q : Zone, (q.count).fresh = false ∧ (q.count).toggled = false ∧ (q.count).miss = (if q.fresh then 0 else min 15 (q.miss + 1)) ∧
      (q.count).still = (if q.toggled then 0 else min 15 (q.still + 1)) ∧ (q.count).st = q.st ∧ (q.count).asks = q.asks ∧ (q.count).out = q.out) ∧
    (s.loops.pendingSwap = false → s.bankSwap = s) ∧
    (s.loops.pendingSwap = true → s.loops.swapLate = true → s.bankSwap = { s with loops := { s.loops with swapLate := false } }) ∧
    (s.loops.pendingSwap = true → s.loops.swapLate = false → s.loops.bank < 2 →
      let b := 1 - s.loops.bank
      let lo : Int := bits (s.reg (LOOP.OUT_LIM b)) 14 0
      let hi : Int := bits (s.reg (LOOP.OUT_LIM b)) 30 16
      s.bankSwap.loops = { s.loops with
        bank := b, pendingSwap := false
        zone := s.loops.zone.map fun q => { q with integ := q.integ.map fun i => sat i (lo * 2 ^ 16) (hi * 2 ^ 16) } } ∧
      bit (s.bankSwap.reg (IRQ_RAW pLOOP)) 6 = true) ∧
    (∀ z : Fin 64, s.loops.zone.length = 64 →
      let q := s.zoneOf z
      let quiet := q.miss = 0 ∧ q.still = 0
      let started := s.setZone z fun _ => { q with
        asks := [], st := .run, cause := 0, integ := List.replicate 3 (bits (s.reg (LOOP.OUT_LIM s.loops.bank)) 14 0 * 2 ^ 16) }
      (q.asks = [] →
        (q.st = .off → s.zoneBoundary z = s) ∧
        (q.st = .run → q.miss < 3 → q.still < 8 → s.zoneBoundary z = s.zoneCompute z) ∧
        (q.st = .run → 3 ≤ q.miss ∨ 8 ≤ q.still → s.zoneBoundary z = s) ∧
        (q.st = .hold → s.zoneBoundary z = s.setZone z fun _ => { q with held := q.held + 1 }) ∧
        (q.st = .safe → ∃ o : Nat, s.zoneBoundary z = s.setZone z (fun _ => { q with out := o, u := o }) ∧
          let target := bits (s.active (LOOP.ZONE_SAFE z)) 14 0
          let step := max 1 (bits (s.active LOOP.FAULT_CFG) 14 0)
          (q.out ≤ target → o = min target (q.out + step)) ∧ (target < q.out → o = max target (q.out - step)))) ∧
      (q.asks = [(1, false)] ∨ q.asks = [(2, false), (1, false)] → q.st = .off → quiet → s.zoneBoundary z = started.zoneCompute z) ∧
      (q.asks = [(1, false)] → q.st = .off → ¬ quiet → s.zoneBoundary z = s.setZone z fun _ => { q with asks := [] }) ∧
      (∀ op, q.asks = [(op, true)] → q.st = .off → s.zoneBoundary z = s.setZone z fun _ => { q with asks := [(op, false)] }) ∧
      (q.asks = [(2, false)] → q.st = .hold ∨ q.st = .safe → quiet → s.replaying = false → s.zoneBoundary z =
        (((((s.setZone z fun _ => { q with asks := [], st := .run, cause := 0, integ := List.replicate 3 (q.u * 2 ^ 16) }).event pLOOP
          V.RESTART [.f 1 z.val, .lt s.lineTime]).raise pLOOP 5).bump LOOP.RESTARTS 1).zoneCompute z))) ∧
    (∀ late : Bool, s.power.st < 2 → let v := if late then s.setLate pLOOP else s
      (∀ z : Fin 64, z.val < s.zones → s.enabled pLOOP = true →
        exec (.zoneStart false z late) s = .next (settle s (v.setZone z fun q => { q with asks := q.asks ++ [(1, late)] })) ∧
        exec (.restart false z late) s = .next (settle s (v.setZone z fun q => { q with asks := q.asks ++ [(2, late)] }))) ∧
      (∀ (all : Bool) (z : Fin 64), s.enabled pLOOP = false ∨ (all = false ∧ s.zones ≤ z.val) →
        exec (.zoneStart all z late) s = .next (settle s v) ∧ exec (.restart all z late) s = .next (settle s v))) ∧
    (∀ (z : Fin 64), s.power.st < 2 → z.val < s.zones → exec (.zoneStop false z) s = .next (settle s
      (s.setZone z fun q => { q with st := .off, cause := 0, out := 0, u := 0, asks := [] }))) ∧
    (∀ z : Fin 64, s.power.st < 2 → ∃ t, exec (.zoneStop true z) s = .next t ∧ t.mem = s.mem ∧ t.regs = s.regs ∧ ∀ k < 64, s.loops.zone.length = 64 →
      t.zoneOf k = if k < s.zones then { s.zoneOf k with st := .off, cause := 0, out := 0, u := 0, asks := [] } else s.zoneOf k)

/-- O50. ZONE_HOLD moves nothing while no zone in RUN has reached a limit; a zone that has enters HOLD with its cause, LOST before FROZEN,
keeps its output, is counted and signalled; until the hand-over edge of F it voids no cell. ZONE_SAFE moves the zones that have been in
HOLD for FAULT_CFG.HOLD samples to SAFE, each with its record, and marks them for the next hand-over edge. SAMPLE_FRAME does nothing while
EN is 0; else it sends the command words of its slots and counts a frame, and a slot with a result sets VALUE and VALID, while one without
keeps the last value, clears VALID and is recorded once for each run (R443 to R446, R451, R452). -/
def Obligations.LostFeedback : Prop :=
  ∀ (s : State), s.power.st ≠ 4 →
    (let hit := (List.range s.zones).filter fun z => (s.zoneOf z).st == .run && (s.zoneOf z).lostCause != 0
     (hit = [] → exec .zoneHold s = .next (settle s s)) ∧
     (∀ z : Fin 64, hit = [z.val] → s.replaying = false → s.loops.zone.length = 64 → ∃ t, exec .zoneHold s = .next t ∧
       t.zoneOf z = { s.zoneOf z with st := .hold, cause := if 3 ≤ (s.zoneOf z).miss then 1 else 2, held := 0, early := true } ∧
       bit (t.reg (IRQ_RAW pLOOP)) (if 3 ≤ (s.zoneOf z).miss then 2 else 3) = true ∧ t.mem = s.mem ∧ t.slots = s.slots ∧
       (∀ k < 64, k ≠ z.val → t.zoneOf k = s.zoneOf k) ∧ z.val ∉ t.zonesHeld ∧ z.val ∈ t.holdsBegin.zonesHeld)) ∧
    (let due := (List.range s.zones).filter fun z => decide ((s.zoneOf z).st = .hold) && decide (s.holdSamples ≤ (s.zoneOf z).held)
     (due = [] → exec .zoneSafe s = .next (settle s s)) ∧
     (∀ z : Fin 64, due = [z.val] → s.replaying = false → exec .zoneSafe s = .next (settle s
       ((({ s.setZone z (fun q => { q with st := .safe }) with loops := { (s.setZone z fun q => { q with st := .safe }).loops with
           safeDue := s.loops.safeDue ++ [z.val] } } : State).event pLOOP V.SAFE [.f 1 z.val, .lt s.lineTime]).raise pLOOP 4)))) ∧
    (∀ r, s.enabled pSAMPLE = false → exec (.sampleFrame r) s = .next (settle s s)) ∧
    (∀ r, s.enabled pSAMPLE = true → exec (.sampleFrame r) s = .next (settle s
      ((List.range (min 16 (max 1 (bits (s.reg SAMPLE.CFG) 20 16)))).foldl (fun s k => s.sampleSlot k ((r.getD k none).map (·.toNat)))
        ((s.emit (.sampleFrame ((List.range (min 16 (max 1 (bits (s.reg SAMPLE.CFG) 20 16)))).map fun k =>
          bits (s.reg (SAMPLE.CMD k)) 15 0))).bump SAMPLE.FRAMES 1)))) ∧
    (∀ (k : Fin 16) (v : Nat), s.samples.length = 16 → v < 2 ^ 16 →
      let t := s.sampleSlot k (some v)
      t.reg (SAMPLE.VALUE k) = 2 ^ 31 + v ∧ t.samples.getD k none = some { v := v, age := 0 } ∧ t.led = s.led ∧ t.mem = s.mem ∧
      ∀ j : Fin 16, j ≠ k → t.samples.getD j none = s.samples.getD j none ∧ t.reg (SAMPLE.VALUE j) = s.reg (SAMPLE.VALUE j)) ∧
    (∀ k : Fin 16, risingFrom 0 s.regs = true →
      let t := s.sampleSlot k none
      t.reg (SAMPLE.VALUE k) = s.reg (SAMPLE.VALUE k) % 2 ^ 31 ∧ t.samples = s.samples ∧
      (s.sampleRun.contains k.val = true → t.led = s.led ∧ t.reg SAMPLE.TIMEOUTS = s.reg SAMPLE.TIMEOUTS) ∧
      (s.sampleRun.contains k.val = false → t.sampleRun = s.sampleRun ++ [k.val] ∧
        t.reg SAMPLE.TIMEOUTS = min (s.reg SAMPLE.TIMEOUTS + 1) 0xFFFFFFFF ∧ bit (t.reg (IRQ_RAW pSAMPLE)) 2 = true))

/-- O51. An ECHO settles nothing by itself but marks its outstanding segment Good or Mismatch by its SEAL, and lost where it says so, and
is a stray where no segment matches, one has its echo already or its deadline has passed; a gap in the reports reaches the segments of the
line time in which it opens; HEALTH messages gather until END, a repeated report number is a stray and a skipped one a TELEMETRY_GAP; a
ZONE message of a zone below ZONES is taken with its SEQ checked, counted in STRAY_ZONES above it, and in TELEM_DROPS where the queue is
full; LINK counts the head's uncorrectable codewords and moves its lane; a message outside its layout counts in STRAY_MSGS, and one of
MKIND 0 has no effect (R272, R274, R342 to R350, R436, R438). -/
def Obligations.ReturnMessages : Prop :=
  ∀ (s : State) (m : List Byte), s.power.st ≠ 4 →
    let u : State := s.returnTaken m
    (u.jl.inbox = (match s.jl.inbox.find? fun e => e.2 == m with
      | none => s.jl.inbox
      | some e => s.jl.inbox.erase e) ∧ u = { s with jl := { s.jl with inbox := u.jl.inbox } }) ∧
    (∀ lane,
      (echoOk m = false → exec (.echo lane m) s = .next (settle s (u.bump JLINK.STRAY_MSGS 1))) ∧
      (echoOk m = true →
        let hit (g : Seg) : Prop := g.data.row = fld m 1 1 ∧ g.data.strip = fld m 2 1 ∧ g.lt % 2 ^ 32 = fld m 4 4
        ((∀ g ∈ s.segs, ¬ hit g) → exec (.echo lane m) s = .next (settle s ((u.bump SEAL.ECHO_STRAYS 1).event pSEAL V.ECHO_STRAY []))) ∧
        (∀ a g b, s.segs = a ++ g :: b → (∀ x ∈ a, ¬ hit x) → hit g →
          (g.echo.isSome = true ∨ g.lt + 4 ≤ s.lineTime →
            exec (.echo lane m) s = .next (settle s ((u.bump SEAL.ECHO_STRAYS 1).event pSEAL V.ECHO_STRAY []))) ∧
          (g.echo = none → s.lineTime < g.lt + 4 → (∀ x ∈ b, x ≠ g) →
            (fld m 3 1 = 1 → ∃ v, exec (.echo lane m) s = .next (settle s { u with segs := a ++ { g with lost := true, echo := some v } :: b })) ∧
            (fld m 3 1 = 0 → fld m 8 4 = g.data.sealOf → exec (.echo lane m) s = .next (settle s { u with segs := a ++ { g with echo := some 0 } :: b })) ∧
            (fld m 3 1 = 0 → fld m 8 4 ≠ g.data.sealOf →
              exec (.echo lane m) s = .next (settle s { u with segs := a ++ { g with echo := some 1 } :: b })))))) ∧
    ((healthOk m = false → exec (.health m) s = .next (settle s (u.bump JLINK.STRAY_MSGS 1))) ∧
     (healthOk m = true →
      let msg : HealthMsg := { row := fld m 1 1, failed := bit (fld m 2 1) 1, first := fld m 6 2, count := fld m 8 4 }
      let full := bit (fld m 2 1) 2
      (bit (fld m 2 1) 0 = false → (∀ r, s.jl.gather = some r → r.number ≠ fld m 4 2) → exec (.health m) s = .next (settle s
        { u with jl := { u.jl with gather := some { number := fld m 4 2, full := full, msgs := [msg] } } })) ∧
      (∀ r, bit (fld m 2 1) 0 = false → s.jl.gather = some r → r.number = fld m 4 2 → exec (.health m) s = .next (settle s
        { u with jl := { u.jl with gather := some { number := fld m 4 2, full := full, msgs := r.msgs ++ [msg] } } })) ∧
      (bit (fld m 2 1) 0 = true → s.jl.gather = none →
        let q : HealthReport := { number := fld m 4 2, full := full, msgs := [msg] }
        let v : State := { u with jl := { u.jl with gather := none, lastReport := some (fld m 4 2), reports := s.jl.reports ++ [q] } }
        ((∀ k, s.jl.lastReport = some k → fld m 4 2 = (k + 1) % 2 ^ 16) → exec (.health m) s = .next (settle s v)) ∧
        (s.jl.lastReport = some (fld m 4 2) → exec (.health m) s = .next (settle s (u.bump JLINK.STRAY_MSGS 1))) ∧
        (∀ k, s.jl.lastReport = some k → fld m 4 2 ≠ k → fld m 4 2 ≠ (k + 1) % 2 ^ 16 → s.replaying = false →
          let w : State := ((v.error pJLINK E.TELEMETRY_GAP []).bump JLINK.TELEM_GAPS 1).raise pJLINK 5
          exec (.health m) s = .next (settle s ((w.segs.filter fun g => g.lt == w.lineTime).foldl
            (fun x g => g.cells.foldl (fun x c => x.suspectCell c.1 c.2 rBEAM_LOST) x) { w with jl := { w.jl with healthGap := true } })))))) ∧
    (∀ full,
      (zoneOk m = false → exec (.zone m full) s = .next (settle s (u.bump JLINK.STRAY_MSGS 1))) ∧
      (zoneOk m = true →
        let z := fld m 1 1
        let v : State := { u with jl := { u.jl with zoneSeq := keySet s.jl.zoneSeq z (fld m 4 2) } }
        (bits (s.active LOOP.SAMPLE_CFG) 22 16 ≤ z → exec (.zone m full) s = .next (settle s (u.bump LOOP.STRAY_ZONES 1))) ∧
        (z < bits (s.active LOOP.SAMPLE_CFG) 22 16 → (∀ p, keyGet s.jl.zoneSeq z = some p → fld m 4 2 = (p + 1) % 2 ^ 16) →
          exec (.zone m true) s = .next (settle s (v.bump LOOP.TELEM_DROPS 1)) ∧
          exec (.zone m false) s = .next (settle s { v with loops := { s.loops with zone := modAt s.loops.zone z fun q => { q with
            power := fld m 6 2, temp := fld m 8 2, current := fld m 10 2, supply := fld m 12 2, fresh := true,
            toggled := q.toggled || (q.alive.isSome && q.alive != some (bit (fld m 2 1) 0)), alive := some (bit (fld m 2 1) 0) } } })) ∧
        (∀ p, z < bits (s.active LOOP.SAMPLE_CFG) 22 16 → keyGet s.jl.zoneSeq z = some p → fld m 4 2 ≠ (p + 1) % 2 ^ 16 →
          exec (.zone m true) s = .next (settle s
            ((((v.error pJLINK E.TELEMETRY_GAP []).bump JLINK.TELEM_GAPS 1).raise pJLINK 5).bump LOOP.TELEM_DROPS 1))))) ∧
    ((linkOk m = false → exec (.link m) s = .next (settle s (u.bump JLINK.STRAY_MSGS 1))) ∧
     (linkOk m = true →
      let n := fld m 1 1
      let v : State := (u.bump (JLINK.HEAD_UNCORR n) (fld m 4 2)).setLane n fun l => { l with
        headLock := bit (fld m 2 1) 0, headHere := bit (fld m 2 1) 0 && l.tstate == 6 }
      (bit (fld m 2 1) 0 = false → exec (.link m) s = .next (settle s (v.headLaneLost n))) ∧
      (bit (fld m 2 1) 0 = false → (s.laneOf n).link ≠ hUP → (s.laneOf n).link ≠ hSPARE → exec (.link m) s = .next (settle s v)) ∧
      (bit (fld m 2 1) 0 = true → s.jl.takeovers = [] → (s.laneOf n).link ≠ hALIGN ∨ (s.laneOf n).rxLock = false ∨ (s.laneOf n).tstate ≠ 6 → exec (.link m) s = .next (settle s v)) ∧
      (bit (fld m 2 1) 0 = true → s.jl.takeovers = [] → (s.laneOf n).link = hALIGN → (s.laneOf n).rxLock = true → (s.laneOf n).tstate = 6 →
        n < s.lanes.lane.length →
        exec (.link m) s = .next (settle s (v.setLane n fun l => { l with
          link := if (s.stripOfLane n).isSome then hUP else hSPARE, entered := true }))) ∧
      (∀ k, bit (fld m 2 1) 0 = true → bit (fld m 2 1) 1 = true → s.jl.takeovers = [k] → k.toLane = n → k.swapId = fld m 6 2 →
        (s.laneOf n).link = hSPARE →
        let w : State := ((({ v with jl := { v.jl with takeovers := [] } } : State).setReg (JLINK.LANE_MAP k.strip) n).setActive
          (JLINK.LANE_MAP k.strip) n).setLane n fun l => { l with link := hUP, entered := true }
        let waits (g : Seg) : Bool := g.data.strip == k.strip && g.lane.isNone && g.lt == s.lineTime && !g.lost && g.sent == 0
        let x : State := { w with segs := if s.enabled pJLINK = true then s.segs.map fun g => if waits g then { g with lane := some n } else g
                                          else s.segs }
        exec (.link m) s = .next (settle s (((x.bump JLINK.TAKEOVERS 1).event pJLINK V.TAKEOVER []).raise pJLINK 3)))) ) ∧
    (fld m 0 1 = 0 → exec (.strayReturnMessage m) s = .next (settle s u)) ∧
    (fld m 0 1 ≠ 0 → exec (.strayReturnMessage m) s = .next (settle s (u.bump JLINK.STRAY_MSGS 1)))

/-- O52. The levels of a codeword reach nothing on a lane that neither seeks nor holds lock; one with more than 15 wrong symbols counts in
UNCORR and lets the receiver adapt; a receiver that seeks lock goes on to the next of the 34 word offsets and begins its good run anew, as
it does on an invalid header (the order of the offsets is the model's choice, log 75), and one that holds lock loses it at the LOCK_BAD-th
in a row; a good one counts its wrong symbols on a head lane, adapts the receiver or freezes it, and takes lock at the LOCK_GOOD-th valid
one in a row; a locked receiver drops a FILL, passes the return messages of DATA on from a head lane, and a peer lane's DATA and IDLE
whole, and drops content with ELASTIC_OVERFLOW where the receive queue is full; LANE_LOCK locks the receiver of a lane in ALIGN; a lost UP
lane's segments that were sent whole are Lost and the rest wait for another lane, and its strip is taken over by the lowest SPARE lane of
its group, or is left with NO_RESERVE_LANE; a SWAP that is not answered fails its lane (R322 to R329, R342, R348 to R351, R353, R363,
R384). -/
def Obligations.LanesLost : Prop :=
  ∀ (s : State), s.power.st ≠ 4 →
    (∀ (n : Fin 24) levels q,
      let l := s.laneOf n
      let r := received (s.rxInverted n) l.precodeRx l.rxLast (levels.map fun b : BitVec 2 => b.toNat)
      let u : State := s.setLane n fun l => { l with rxLast := r.2 }
      let a : State := if l.frozen then u else u.adapt n
      let bad : State := a.bump (if n.val < 18 then JLINK.UNCORR n else PEER.UNCORR) 1
      let seeks : Prop := l.tstate = 6 ∧ 2 ≤ l.link ∧ l.link ≤ 4
      (¬ seeks → exec (.rxCodeword n levels q) s = .next (settle s s)) ∧
      (seeks → r.1 = none →
        (l.rxLock = false → exec (.rxCodeword n levels q) s = .next (settle s
          (bad.setLane n fun l => { l with goodRun := 0, wordOffset := (l.wordOffset + 1) % 34 }))) ∧
        (l.rxLock = true → l.badRun + 1 < s.lockBad n → exec (.rxCodeword n levels q) s = .next (settle s
          (bad.setLane n fun l => { l with badRun := l.badRun + 1, goodRun := 0 }))) ∧
        (l.rxLock = true → s.lockBad n ≤ l.badRun + 1 →
          ∃ t, exec (.rxCodeword n levels q) s = .next t ∧ (t.laneOf n).rxLock = false ∧ t.mem = s.mem)) ∧
      (∀ h c wrong, seeks → r.1 = some (h, c, wrong) →
        let w : State := (if n.val < 18 then u.bump (JLINK.CORR_SYMS n) wrong else u).adaptRun n (hdrType h)
        let v : State := w.setLane n fun l => { l with badRun := 0 }
        (l.rxLock = true → hdrType h = 1 → exec (.rxCodeword n levels q) s = .next (settle s v)) ∧
        (l.rxLock = true → hdrType h ≠ 1 → exec (.rxCodeword n levels true) s = .next (settle s
          (((v.bump (LANE.ELASTIC_DROPS n) 1).error pLANE E.ELASTIC_OVERFLOW [.f 1 n.val]).raise pLANE 4))) ∧
        (l.rxLock = true → hdrType h = 0 → n.val < 18 → exec (.rxCodeword n levels false) s = .next (settle s
          { v with jl := { v.jl with inbox := v.jl.inbox ++ (returnMessages c).map fun m => (n.val, m) } })) ∧
        (l.rxLock = true → hdrType h = 2 ∨ hdrType h = 3 → n.val < 18 → exec (.rxCodeword n levels false) s = .next (settle s v)) ∧
        (l.rxLock = true → hdrType h = 3 → 18 ≤ n.val → exec (.rxCodeword n levels false) s = .next (settle s v)) ∧
        (l.rxLock = true → hdrType h = 0 ∨ hdrType h = 2 → 18 ≤ n.val → exec (.rxCodeword n levels false) s = .next (settle s
          { v with peers := { v.peers with rxq := v.peers.rxq ++ [(n.val, h, c)] } })) ∧
        (l.rxLock = false → headerValid n h = false → exec (.rxCodeword n levels q) s = .next (settle s
          (w.setLane n fun l => { l with goodRun := 0, wordOffset := (l.wordOffset + 1) % 34 }))) ∧
        (l.rxLock = false → headerValid n h = true → l.goodRun + 1 < s.lockGood n → exec (.rxCodeword n levels q) s = .next (settle s
          (w.setLane n fun l => { l with goodRun := l.goodRun + 1 }))) ∧
        (l.rxLock = false → headerValid n h = true → s.lockGood n ≤ l.goodRun + 1 → l.link = hALIGN → n.val < 18 → l.headHere = false →
          exec (.rxCodeword n levels q) s = .next (settle s
            (w.setLane n fun l => { l with goodRun := l.goodRun + 1, rxLock := true, badRun := 0 }))))) ∧
    (∀ n ty,
      let l := s.laneOf n
      let u : State := s.setLane n fun l => { l with idleRun := l.idleRun + 1 }
      let still := ty = 1 ∨ ty = 2
      let freezes := s.freezeRun < l.idleRun + 1 ∧ bit (s.reg LANE.ADAPT_CFG) 16 = false
      (still → l.frozen = true → s.adaptRun n ty = u) ∧
      (still → l.frozen = false → freezes → s.adaptRun n ty = (u.setLane n fun l => { l with frozen := true }).bump (LANE.FREEZES n) 1) ∧
      (still → l.frozen = false → ¬ freezes → s.adaptRun n ty = u.adapt n) ∧
      (¬ still → l.frozen = true → s.adaptRun n ty = s.setLane n fun l => { l with idleRun := 0, frozen := false }) ∧
      (¬ still → l.frozen = false → s.adaptRun n ty = (s.adapt n).setLane n fun l => { l with idleRun := 0, frozen := false })) ∧
    (∀ n : Fin 24,
      ((s.laneOf n).tstate ≠ 6 ∨ (s.laneOf n).link ≠ 2 → exec (.laneLock n) s = .next (settle s s)) ∧
      ((s.laneOf n).tstate = 6 → (s.laneOf n).link = 2 → n.val < 18 → n.val < s.lanes.lane.length →
        ((s.laneOf n).headHere = false → exec (.laneLock n) s = .next (settle s (s.setLane n fun l => { l with rxLock := true, badRun := 0 }))) ∧
        ((s.laneOf n).headHere = true → exec (.laneLock n) s = .next (settle s (s.setLane n fun l => { l with
          rxLock := true, badRun := 0, link := if (s.stripOfLane n).isSome then hUP else hSPARE, entered := true }))))) ∧
    (∀ n : Fin 18,
      let u : State := s.setLane n fun l => { l with rxLock := false, goodRun := 0, badRun := 0, linkCfg := s.reg JLINK.LINK_CFG }
      let lost (v : State) (strip : Nat) : State := (v.error pJLINK E.LANE_LOST [.f 1 n.val, .f 1 strip, .lt s.lineTime]).raise pJLINK 2
      ((s.laneOf n).link ≠ hUP → (s.laneOf n).link ≠ hSPARE → exec (.laneLost n) s = .next (settle s u)) ∧
      ((s.laneOf n).link = hSPARE → (∀ k ∈ s.jl.takeovers, k.toLane ≠ n.val) → exec (.laneLost n) s = .next (settle s
        ((lost u 0).setLane n fun l => { l with link := hLOST, entered := false }))) ∧
      (∀ m, (s.laneOf n).link = hUP → s.stripOfLane n = some m →
        let g : List Seg := s.segs.map fun g =>
          if g.lane = some n.val ∧ g.data.strip = m then
            if g.lost = false ∧ g.sent < g.data.count then { g with lane := none } else { g with lost := true }
          else g
        let v : State := ({ lost u m with segs := g } : State).setLane n fun l => { l with link := hLOST, entered := false }
        (s.spares (stripGroup m) = [] → exec (.laneLost n) s = .next (settle s
          (((v.error pJLINK E.NO_RESERVE_LANE []).bump JLINK.NO_RESERVES 1).raise pJLINK 4))) ∧
        (∀ r rest, s.spares (stripGroup m) = r :: rest → bit (s.reg (CTRL pJLINK)) 0 = true → bit (s.reg (CTRL pJLINK)) 1 = false →
          s.jl.swapId < 0xFFFF →
          ∃ t pam, exec (.laneLost n) s = .next t ∧ t.segs = g ∧
            t.jl = { s.jl with swapId := s.jl.swapId + 1,
                               takeovers := s.jl.takeovers ++ [{ strip := m, fromLane := n.val, toLane := r, swapId := s.jl.swapId + 1 }] } ∧
            (t.laneOf n).link = hLOST ∧
            Out.codeword r (headHeader 3 0 0 true s.lineTime) (.bytes (swapContent m n.val r (s.jl.swapId + 1))) pam ∈ t.out))) ∧
    (∀ m : Fin 16,
      ((∀ k ∈ s.jl.takeovers, k.strip ≠ m.val) → exec (.swapTimeout m) s = .next (settle s s)) ∧
      (∀ k, s.jl.takeovers = [k] → k.strip = m.val →
        (s.spares (stripGroup m) = [] → exec (.swapTimeout m) s = .next (settle s
          (((({ (s.setLane k.toLane fun l => { l with link := hFAILED, entered := false }).bump JLINK.TAKEOVER_FAILS 1 with
                jl := { s.jl with takeovers := [] } } : State).error pJLINK E.NO_RESERVE_LANE []).bump JLINK.NO_RESERVES 1).raise pJLINK 4))) ∧
        (∀ r rest, s.spares (stripGroup m) = r :: rest → bit (s.reg (CTRL pJLINK)) 0 = true → bit (s.reg (CTRL pJLINK)) 1 = false →
          s.jl.swapId < 0xFFFF →
          ∃ t pam, exec (.swapTimeout m) s = .next t ∧ (k.toLane < s.lanes.lane.length → (t.laneOf k.toLane).link = hFAILED) ∧
            t.jl = { s.jl with swapId := s.jl.swapId + 1,
                               takeovers := [{ strip := m.val, fromLane := k.fromLane, toLane := r, swapId := s.jl.swapId + 1 }] } ∧
            Out.codeword r (headHeader 3 0 0 true s.lineTime) (.bytes (swapContent m k.fromLane r (s.jl.swapId + 1))) pam ∈ t.out)))

/-- O53. LCMD_START and GSTART begin bring-up of lanes that may start, none while LANE.CTRL.EN is 0 and no head lane in SCRAPPED;
LCMD_STOP powers a lane down, which is LOST until it is started again where it carried traffic; CDR_LOCK records the rate and fails a lane
beyond 300 ppm; a blind lane is DONE after BLIND_SETTLE_DONE and a trained one after HOLD_DONE; RX_READY and TRAIN_FAIL act only in bring-
up; a BLIND receiver takes no training frame; three in a row fix the order of a group, a TX_ID that fits neither order fails the lane, and
a request for one tap moves it one step within the limits; an eye scan runs on a lane with a signal and ends with its counts (R367 to
R380, R386 to R388, R622). -/
def Obligations.LaneBringUp : Prop :=
  ∀ (s : State), s.power.st ≠ 4 →
    (∀ n : Fin 25, (s.enabled pLANE = false ∨ (n.val < 18 ∧ s.life.st = 4) ∨ (n.val < 24 ∧ 1 ≤ (s.laneOf n).link ∧ (s.laneOf n).link ≤ 4) ∨
        (n.val = 24 ∧ 1 ≤ (s.laneOf n).tstate ∧ (s.laneOf n).tstate ≤ 6) → s.power.st < 2 → exec (.lcmdStart n) s = .next (settle s s)) ∧
      (s.enabled pLANE = true → s.power.st < 2 →
        (n.val < 24 ∧ ((s.laneOf n).link = 0 ∨ (s.laneOf n).link = 5 ∨ (n.val < 18 ∧ (s.laneOf n).link = 6)) ∧
          (n.val < 18 → s.life.st ≠ 4)) ∨
        (n.val = 24 ∧ ((s.laneOf n).tstate = 0 ∨ (s.laneOf n).tstate = 7)) →
        let cfg := s.reg (LANE.LCFG n)
        let detect := decide (n.val < 24) && bit cfg 0
        let j : State := if n.val < 18 then { s with jl := { s.jl with groups := (headGroup n :: s.jl.groups).eraseDups } } else s
        (detect = false ∨ (s.orderOf (laneGroup n)).known = true → (∀ w, s.lanes.es ≠ some (n.val, w)) → exec (.lcmdStart n) s = .next (settle s
          (((j.setPair (s.rxPhys n) fun _ => {}).setLane n fun l => {
            tstate := 1, link := if n.val < 24 then 1 else 0, detect := detect, cfg := cfg, eq := l.eq, headLock := l.headLock,
            precodeTx := decide (n.val < 24) && !detect && bit cfg 8 }).setReg
            (LANE.TX_NOW n) (presetTaps (s.reg (LANE.TX_TAPS n)) (bits cfg 5 4))))) ∧
        (detect = true → (s.orderOf (laneGroup n)).known = false → ∃ t, exec (.lcmdStart n) s = .next t ∧ t.mem = s.mem ∧
          ∀ m ∈ groupLanes (laneGroup n), m < s.lanes.lane.length → m = n.val ∨ (s.laneOf m).link = 0 ∨ ((s.laneOf m).tstate = 0 ∧ (s.laneOf m).link = 5) →
            (t.laneOf m).tstate = 1 ∧ (t.laneOf m).link = 1))) ∧
    (∀ g : BitVec 4, s.power.st < 2 → ∃ t, exec (.gstart g) s = .next t ∧ t.mem = s.mem ∧ t.power = s.power ∧
      (∀ m, 24 ≤ m ∨ bit g.toNat (laneGroup m) = false → t.laneOf m = s.laneOf m) ∧
      (s.enabled pLANE = true → ∀ m < 24, m < s.lanes.lane.length → bit g.toNat (laneGroup m) = true →
        (s.laneOf m).link = 0 ∨ ((s.laneOf m).tstate = 0 ∧ (s.laneOf m).link = 5) →
        (m < 18 → s.life.st ≠ 4) → (t.laneOf m).tstate = 1 ∧ (t.laneOf m).link = 1)) ∧
    (∀ n : Fin 25, s.power.st < 2 → (∀ w, s.lanes.es ≠ some (n.val, w)) →
      (n.val < 24 → (s.laneOf n).link ≠ 3 → (s.laneOf n).link ≠ 4 → exec (.lcmdStop n) s = .next (settle s
        (((s.setLane n Lane.down).setPair (s.rxPhys n) fun _ => {}).forgetOrder n))) ∧
      (n.val = 24 → exec (.lcmdStop n) s = .next (settle s (((s.setLane n Lane.down).setPair (s.rxPhys n) fun _ => {}).ethLinkTo 0))) ∧
      (n.val < 24 → ∃ t, exec (.lcmdStop n) s = .next t ∧ t.mem = s.mem ∧ t.laneOf n = {
        eq := (s.laneOf n).eq, headLock := (s.laneOf n).headLock,
        link := if 5 ≤ (s.laneOf n).link then (s.laneOf n).link else if 3 ≤ (s.laneOf n).link then 5 else 0 })) ∧
    (∀ (n : Fin 25) w, s.power.st < 2 → s.lanes.es = some (n.val, w) → ∃ t, exec (.lcmdStop n) s = .next t ∧ t.lanes.es = none ∧
      t.reg LANE.ES_STATUS = 2 ^ 31 + 2 ∧ bit (t.reg (IRQ_RAW pLANE)) 5 = true) ∧
    (∀ (n : Fin 25) ppm,
      ((s.laneOf n).tstate ≠ 1 → exec (.cdrLock n ppm) s = .next (settle s s)) ∧
      ((s.laneOf n).tstate = 1 → (sInt 16 ppm.toNat).natAbs ≤ 3000 →
        let u : State := (s.setReg (LANE.RX_PPM n) ppm.toNat).setPair (s.rxPhys n) fun p => { p with cdr := true }
        ((s.laneOf n).detect = false → exec (.cdrLock n ppm) s = .next (settle s u)) ∧
        ((s.laneOf n).detect = true → exec (.cdrLock n ppm) s = .next (settle s (u.setLane n fun l => { l with tstate := 2 })))) ∧
      ((s.laneOf n).tstate = 1 → 3000 < (sInt 16 ppm.toNat).natAbs → ∃ t, exec (.cdrLock n ppm) s = .next t ∧ (t.laneOf n).tstate = 7 ∧
        (t.laneOf n).failWhy = 3 ∧ t.reg (LANE.TRAIN_FAILS n) = min (s.reg (LANE.TRAIN_FAILS n) + 1) 0xFFFFFFFF ∧
        bit (t.reg (IRQ_RAW pLANE)) 3 = true)) ∧
    (∀ n : Fin 25,
      (¬ ((s.laneOf n).tstate = 1 ∧ (s.laneOf n).detect = false ∧ (s.pairOf (s.rxPhys n)).cdr = true) →
        exec (.blindSettleDone n) s = .next (settle s s)) ∧
      ((s.laneOf n).tstate = 1 → (s.laneOf n).detect = false → (s.pairOf (s.rxPhys n)).cdr = true → ∃ t, exec (.blindSettleDone n) s = .next t ∧
        t.laneOf n = { s.laneOf n with
          tstate := 6, link := if n.val < 24 then 2 else 0, idles := 0, txPos := 0, rxLast := 0, idleRun := 0, frozen := false,
          rxLock := decide (24 ≤ n.val) && (s.laneOf n).rxLock, goodRun := if n.val < 24 then 0 else (s.laneOf n).goodRun,
          badRun := if n.val < 24 then 0 else (s.laneOf n).badRun,
          linkCfg := if n.val < 18 then s.reg JLINK.LINK_CFG else if n.val < 24 then s.reg PEER.LINK_CFG else (s.laneOf n).linkCfg,
          eq := if s.power.st = 2 ∨ s.power.st = 3 then (s.laneOf n).eq else (List.range 13).map fun i => (Config.freeWord (s.free + i)).toNat,
          precodeTx := decide (n.val < 24) && bit (s.laneOf n).cfg 8, precodeRx := decide (n.val < 24) && bit (s.laneOf n).cfg 8 } ∧
        bit (t.reg (IRQ_RAW pLANE)) 2 = true ∧ t.mem = s.mem)) ∧
    (∀ n : Fin 24,
      ((s.laneOf n).tstate ≠ 5 → exec (.holdDone n) s = .next (settle s s)) ∧
      ((s.laneOf n).tstate = 5 → (s.laneOf n).detect = true → exec (.holdDone n) s = .next (settle s
        ((s.setLane n fun l => { l with
          tstate := 6, link := 2, idles := 0, txPos := 0, txLast := 0, rxLast := 0, idleRun := 0, frozen := false,
          rxLock := false, goodRun := 0, badRun := 0, linkCfg := s.reg (if n.val < 18 then JLINK.LINK_CFG else PEER.LINK_CFG),
          precodeTx := l.partnerPrecodeReq, precodeRx := l.partnerPrecodeOn }).raise pLANE 2))) ∧
      ((s.laneOf n).tstate ≠ 3 → exec (.rxReady n) s = .next (settle s s)) ∧
      ((s.laneOf n).tstate = 3 → exec (.rxReady n) s = .next (settle s
        (s.setLane n fun l => { l with tstate := if l.partnerReady then 5 else 4, rxReady := true })))) ∧
    (∀ (n : Fin 25) why,
      ((s.laneOf n).tstate = 0 ∨ 6 ≤ (s.laneOf n).tstate → exec (.trainFail n why) s = .next (settle s s)) ∧
      (1 ≤ (s.laneOf n).tstate → (s.laneOf n).tstate ≤ 5 → ∃ t, exec (.trainFail n why) s = .next t ∧ (t.laneOf n).tstate = 7 ∧
        (t.laneOf n).failWhy = whyCode why ∧ (t.laneOf n).link = 0 ∧ t.mem = s.mem ∧
        t.reg (LANE.TRAIN_FAILS n) = min (s.reg (LANE.TRAIN_FAILS n) + 1) 0xFFFFFFFF ∧ bit (t.reg (IRQ_RAW pLANE)) 3 = true)) ∧
    (∀ (p : Fin 24) inv (fields : BitVec 48) (check : BitVec 16), p.val < s.lanes.pair.length →
      let f := fields.toNat
      let pr := s.pairOf p
      let good : Prop := frameCheck f = check.toNat ∧ (pr.frames = 0 ∨ pr.polInv = inv)
      let q : State := s.setPair p fun x => { x with frames := min 3 (x.frames + 1), polInv := inv, txId := bits f 32 28 }
      let o := s.orderOf (laneGroup p)
      let n := if o.rxRev then mirror p else p.val
      let takes : Prop := (s.laneOf n).detect = true ∧ 2 ≤ (s.laneOf n).tstate ∧ (s.laneOf n).tstate ≤ 5
      let meets (k : Nat) : Prop := (s.laneOf k).detect = true ∧ 2 ≤ (s.laneOf k).tstate ∧ (s.laneOf k).tstate ≤ 5
      (¬ takes → exec (.trainingFrame p inv fields check) s = .next (settle s s)) ∧
      (takes → ¬ good → pr.frames < 3 → exec (.trainingFrame p inv fields check) s = .next (settle s (s.setPair p fun x => { x with frames := 0 }))) ∧
      (takes → ¬ good → 3 ≤ pr.frames → exec (.trainingFrame p inv fields check) s = .next (settle s s)) ∧
      (takes → good → pr.frames < 2 → o.known = false → exec (.trainingFrame p inv fields check) s = .next (settle s q)) ∧
      (takes → good → pr.frames < 2 → o.known = true → exec (.trainingFrame p inv fields check) s = .next (settle s (q.frameTaken n f))) ∧
      (takes → good → 2 ≤ pr.frames → o.known = false → bits f 32 28 = txIdOf p → 4 ≤ s.lanes.order.length →
        let v : State := q.setOrder (laneGroup p) fun o => { o with known := true, rxRev := false }
        (¬ meets p → exec (.trainingFrame p inv fields check) s = .next (settle s v)) ∧
        (meets p → exec (.trainingFrame p inv fields check) s = .next (settle s (v.laneFrame p f)))) ∧
      (takes → good → 2 ≤ pr.frames → o.known = false → bits f 32 28 ≠ txIdOf p → bits f 32 28 = txIdOf (mirror p) → 4 ≤ s.lanes.order.length →
        let v : State := q.setOrder (laneGroup p) fun o => { o with known := true, rxRev := true }
        (¬ meets (mirror p) → exec (.trainingFrame p inv fields check) s = .next (settle s v)) ∧
        (meets (mirror p) → exec (.trainingFrame p inv fields check) s = .next (settle s (v.laneFrame (mirror p) f)))) ∧
      (takes → good → 2 ≤ pr.frames → o.known = true → bits f 32 28 ≠ txIdOf n →
        ∃ t, exec (.trainingFrame p inv fields check) s = .next t ∧ (t.laneOf n).tstate = 7 ∧ (t.laneOf n).failWhy = 2) ∧
      (takes → good → 2 ≤ pr.frames → o.known = true → bits f 32 28 = txIdOf n → (s.laneOf n).tstate = 2 → (s.orderOf (laneGroup n)).txKnown = true →
        bit f 38 = true → bits f 37 33 = txIdOf n ∨ ((s.orderOf (laneGroup n)).txRev = true ∧ bits f 37 33 = txIdOf (mirror n)) → bit f 8 = false → bits f 7 0 = 0 →
        exec (.trainingFrame p inv fields check) s = .next (settle s ((q.setLane n fun l => { l with
          partnerPrecodeReq := bit f 11, partnerReady := bit f 12, partnerPrecodeOn := bit f 24, txStatus := 0, seenOk := true, tstate := 3,
          request := 2 ^ 8 + bits (s.laneOf n).cfg 5 4 * 2 ^ 9, phase := 0, requests := 1 }).bump (LANE.REQS n) 1))) ∧
      (takes → good → 2 ≤ pr.frames → o.known = true → bits f 32 28 = txIdOf n → (s.laneOf n).tstate = 4 → bit f 38 = false → bit f 8 = false →
        let kept (l : Lane) : Lane :=
          { l with partnerPrecodeReq := bit f 11, partnerReady := bit f 12, partnerPrecodeOn := bit f 24 }
        (bits f 7 0 = 0 → exec (.trainingFrame p inv fields check) s = .next (settle s
          (q.setLane n fun l => { kept l with txStatus := 0, tstate := if bit f 12 then 5 else 4 }))) ∧
        (∀ i : Fin 4, bit f 12 = false → bits (s.laneOf n).txStatus (2 * i + 1) (2 * i) = 0 →
          (bits f 7 0 = 4 ^ i.val → exec (.trainingFrame p inv fields check) s = .next (settle s
            ((q.setReg (LANE.TX_NOW n) (tapStep (s.reg (LANE.TX_NOW n)) i 1).1).setLane n fun l =>
              { kept l with txStatus := putField l.txStatus (2 * i + 1) (2 * i) (tapStep (s.reg (LANE.TX_NOW n)) i 1).2 }))) ∧
          (bits f 7 0 = 2 * 4 ^ i.val → exec (.trainingFrame p inv fields check) s = .next (settle s
            ((q.setReg (LANE.TX_NOW n) (tapStep (s.reg (LANE.TX_NOW n)) i 2).1).setLane n fun l =>
              { kept l with txStatus := putField l.txStatus (2 * i + 1) (2 * i) (tapStep (s.reg (LANE.TX_NOW n)) i 2).2 })))))) ∧
    (∀ w i r, tapsOk w = true → tapsOk (tapStep w i r).1 = true) ∧
    (∀ ctrl : Word, s.power.st < 2 →
      let v := ctrl.toNat &&& esCtrlMask
      let u : State := s.setReg LANE.ES_CTRL (putField v 31 31 0)
      (bit v 31 = false ∨ s.lanes.es.isSome = true → exec (.esStart ctrl) s = .next (settle s u)) ∧
      (bit v 31 = true → s.lanes.es = none → s.esNoSignal (bits v 20 16) = true → exec (.esStart ctrl) s = .next (settle s
        (((((u.setReg LANE.ES_STATUS (2 ^ 31 + 1)).setReg LANE.ES_ERRORS 0).setReg LANE.ES_BITS_LO 0).setReg LANE.ES_BITS_HI 0).raise pLANE 5))) ∧
      (bit v 31 = true → s.lanes.es = none → s.esNoSignal (bits v 20 16) = false → exec (.esStart ctrl) s = .next (settle s
        { u with lanes := { s.lanes with es := some (bits v 20 16, bits (u.reg LANE.ES_POINT) 29 24) } }))) ∧
    (∀ a e c, (s.lanes.es = none → exec (.esDone a e c) s = .next (settle s s)) ∧
      (∀ k w, s.lanes.es = some (k, w) →
        let whole := 2 ^ min 40 (max 10 w)
        let ui := if a then min c whole else whole
        exec (.esDone a e c) s = .next (settle s
          ((((({ s with lanes := { s.lanes with es := none } } : State).setReg LANE.ES_STATUS (2 ^ 31 + if a then 2 else 0)).setReg
            LANE.ES_ERRORS (min (min e ui) 0xFFFFFFFF)).setReg LANE.ES_BITS_LO (ui % 2 ^ 32)).setReg LANE.ES_BITS_HI (ui / 2 ^ 32 % 2 ^ 9)
              |>.raise pLANE 5))))

/-- O54. HELLO_SEND sends a hello on a lane that sends codewords; a hello that names the wrong neighbour is PEER_MSG_BAD, and a valid one
renews the side and brings it UP with SEQ 0 at its first ACTIVE lane; LANE_LOCK makes a lane ACTIVE or SPARE; DATA codewords are acted on
in SEQ order and exactly once, those at most 32 ahead are kept; a message is taken, passed on with one more hop, dropped and counted at a
DOWN side, or UNROUTED; PEER_RETRY sends every unacknowledged codeword again; PEER_LOST takes a side DOWN; a letter of this device is cut
into fragments once those of the one before it have been sent; a relayed tally record goes into the ledger; letter fragments are gathered
in the forward buffer; neither happens while the memory serves no request (R392 to R405, R500, R590). -/
def Obligations.PeerSides : Prop :=
  ∀ (s : State), s.power.st ≠ 4 →
    (∀ i : Fin 6,
      let n := 18 + i.val
      let d := laneSide n
      ((s.laneOf n).link ≠ 2 → (s.laneOf n).link ≠ 3 → (s.laneOf n).link ≠ 4 → exec (.helloSend i) s = .next (settle s s)) ∧
      (2 ≤ (s.laneOf n).link → (s.laneOf n).link ≤ 4 →
        let u : State := if s.fillDue n then s.sendFill n else s
        let h := peerHeader 2 0 (s.sideOf d).ack
        let c := Content.bytes (s.helloContent d (laneIndex n))
        exec (.helloSend i) s = .next (settle s (({ u with out := u.out ++ [.codeword n h c (u.pamOf n)] } : State).setLane n fun l =>
          { l with txPos := (l.txPos + 1) % 1024, txLast := (u.pamOf n).lastOf (codewordGray h c),
                   txWord := some (h, c, u.pamOf n), idles := if l.tstate = 6 then (l.idles + 1) % 2 ^ 32 else 0 })))) ∧
    (∀ n, 18 ≤ n → s.fillDue n = (((s.laneOf n).txPos == 1023) && ((s.laneOf n).tstate == 6)) ∧
      s.sendFill n = ({ s with out := s.out ++ [.codeword n (peerHeader 1 0 0) (.bytes []) (s.pamOf n)] } : State).setLane n fun l =>
        { l with txPos := (l.txPos + 1) % 1024, txLast := (s.pamOf n).lastOf (codewordGray (peerHeader 1 0 0) (.bytes [])),
                 txWord := some (peerHeader 1 0 0, .bytes [], s.pamOf n) }) ∧
    (∀ d i, i < 3 → let c := s.helloContent d i
      c.length = 640 ∧ fld c 0 2 = s.deviceNo ∧ fld c 2 1 = s.chainPos ∧ fld c 3 1 = i ∧ fld c 8 4 = s.fwdLimitOut d ∧
      (∀ j < 3, bit (fld c 4 1) j = (s.laneOf (sideBase d + j)).rxLock)) ∧
    (∀ (i : Fin 6) (h : BitVec 20) c,
      let n := 18 + i.val
      let d := laneSide n
      let v : State := s.rxTaken n h.toNat c
      let side (x : Side) : Side := { x with locks := 7, peerDev := fld c 0 2 % 1024, fwdLimit := fld c 8 4 }
      (v = { s with peers := { s.peers with rxq := s.peers.rxq.erase (n, h.toNat, c) } }) ∧
      ((s.laneOf n).rxLock = false ∨ hdrType h.toNat ≠ 2 → exec (.hello i h c) s = .next (settle s v)) ∧
      ((s.laneOf n).rxLock = true → hdrType h.toNat = 2 → s.helloValid d c = false → exec (.hello i h c) s = .next (settle s
        (((v.error pPEER E.PEER_MSG_BAD [.f 8 (leNat (c.take 8))]).bump PEER.MSG_BADS 1).raise pPEER 4))) ∧
      ((s.laneOf n).rxLock = true → hdrType h.toNat = 2 → s.helloValid d c = true → fld c 4 1 = 7 → (s.sideOf d).unacked = [] →
          (s.sideOf d).queue = [] → s.peers.forward = [] →
        ((s.sideOf d).up = true → (∀ j < 3, (s.laneOf (sideBase d + j)).link ≠ 2) →
          exec (.hello i h c) s = .next (settle s (v.setSide d side))) ∧
        ((s.sideOf d).up = false → (s.laneOf n).link = 2 → (s.sideLanes d 3).length < s.activeLanes n → s.enabled pPEER = true →
          (∀ j < 3, j ≠ laneIndex n → (s.laneOf (sideBase d + j)).link ≠ 2) → s.peers.side.length = 2 →
          ∃ t, exec (.hello i h c) s = .next t ∧ (t.laneOf n).link = 3 ∧ bit (t.reg (IRQ_RAW pPEER)) 3 = true ∧
            t.sideOf d = { side (s.sideOf d) with up := true, ahead := [], partials := [], nextSeq := 0, ack := 511, fwdSent := 0, fwdLeft := 0 }) ∧
        ((s.sideOf d).up = false → s.enabled pPEER = false → ∃ t, exec (.hello i h c) s = .next t ∧ (t.sideOf d).up = false))) ∧
    (∀ c, (s.helloValid 0 c = true ↔ 0 < s.chainPos ∧ s.chainPos ≤ s.chainLen ∧ bits (s.active (PEER.POS_DEV (s.chainPos - 1))) 9 0 = fld c 0 2 ∧
        fld c 2 1 = s.chainPos - 1) ∧
      (s.helloValid 1 c = true ↔ s.chainPos + 1 < s.chainLen ∧ bits (s.active (PEER.POS_DEV (s.chainPos + 1))) 9 0 = fld c 0 2 ∧
        fld c 2 1 = s.chainPos + 1)) ∧
    (∀ n : Fin 24, 18 ≤ n.val → (s.laneOf n).tstate = 6 → (s.laneOf n).link = 2 →
      (∀ j < 3, j ≠ laneIndex n → (s.laneOf (sideBase (laneSide n) + j)).link ≠ 2) →
      (bit (s.sideOf (laneSide n)).locks (laneIndex n) = false → exec (.laneLock n) s = .next (settle s
        (s.setLane n fun l => { l with rxLock := true, badRun := 0 }))) ∧
      (bit (s.sideOf (laneSide n)).locks (laneIndex n) = true → exec (.laneLock n) s = .next (settle s (s.setLane n fun l => { l with
        rxLock := true, badRun := 0, link := if (s.sideLanes (laneSide n) 3).length < s.activeLanes n then 3 else 4 })))) ∧
    (∀ (i : Fin 6) (h : BitVec 20) c,
      let n := 18 + i.val
      let d := laneSide n
      let seq := hdrSeq h.toNat
      let v : State := (s.wakeEvent wakePEER).rxTaken n h.toNat c
      let u : State := v.ackTaken d (hdrAck h.toNat)
      let gap := (seq + 1024 - (s.sideOf d).ack - 1) % 512
      (((s.laneOf n).link ≠ 3 ∧ (s.laneOf n).link ≠ 4) ∨ (s.sideOf d).up = false ∨ hdrType h.toNat ≠ 0 →
        exec (.peerDataCodeword i h c) s = .next (settle s v)) ∧
      (((s.laneOf n).link = 3 ∨ (s.laneOf n).link = 4) → (s.sideOf d).up = true → hdrType h.toNat = 0 → (s.sideOf d).ack < 512 →
        (gap = 0 → (s.sideOf d).ahead = [] → exec (.peerDataCodeword i h c) s = .next (settle s
          ((u.setSide d fun x => { x with ack := seq }).allMessages d c))) ∧
        (0 < gap → gap ≤ 32 → (∀ a ∈ (s.sideOf d).ahead, a.1 ≠ seq) → exec (.peerDataCodeword i h c) s = .next (settle s
          (u.setSide d fun x => { x with ahead := x.ahead ++ [(seq, c)] }))) ∧
        (32 < gap ∨ (0 < gap ∧ ∃ a ∈ (s.sideOf d).ahead, a.1 = seq) →
          exec (.peerDataCodeword i h c) s = .next (settle s u)))) ∧
    (∀ (d : Nat) (c : List Byte), (c.length < 8 ∨ fld c 0 1 = 0 → s.allMessages d c = s)) ∧
    (∀ (d : Nat) (m rest : List Byte), 8 ≤ m.length → messageOk m = true → 8 + fld m 6 2 = m.length → m.length % 8 = 0 →
      (rest.length < 8 ∨ fld rest 0 1 = 0) → messageOk (m ++ rest) = true → s.allMessages d (m ++ rest) = s.routeMessage d m) ∧
    (∀ (d : Nat) (m : List Byte),
      let body := (m.drop 8).take (fld m 6 2)
      let taken : State := ({ s with peers := { s.peers with inbox := s.peers.inbox ++ [(fld m 0 1, d, body)] } } : State).bump PEER.MSGS_TAKEN 1
      let own := bits (fld m 2 2) 9 0 = s.deviceNo
      (bit (fld m 2 2) 14 = true → s.routeMessage d m = taken) ∧
      (bit (fld m 2 2) 14 = false → bit (fld m 2 2) 15 = true → s.routeMessage d m = taken.passOn (1 - d) m) ∧
      (bit (fld m 2 2) 14 = false → bit (fld m 2 2) 15 = false →
        (own → s.routeMessage d m = taken) ∧
        (¬ own → s.routeSide (bits (fld m 2 2) 9 0) = none → s.routeMessage d m =
          ((s.bump PEER.UNROUTED 1).raise pPEER 5).event pPEER V.UNROUTED []) ∧
        (∀ t, ¬ own → s.routeSide (bits (fld m 2 2) 9 0) = some t →
          ((s.sideOf t).up = true → s.routeMessage d m = (s.bump PEER.PASSED 1).peerQueue t (fld m 0 1) (hopped m)) ∧
          ((s.sideOf t).up = false → s.routeMessage d m = if fld m 0 1 = 3 then s else s.bump PEER.DROPPED 1)))) ∧
    (∀ d : Fin 2,
      ((s.sideOf d).up = false → exec (.peerRetry d) s = .next (settle s s) ∧ exec (.peerLost d) s = .next (settle s s)) ∧
      ((s.sideOf d).up = true →
        (∃ t, exec (.peerRetry d) s = .next t ∧ t.peers = s.peers ∧ t.mem = s.mem ∧
          (∀ n, ∃ pos last word, t.laneOf n = { s.laneOf n with txPos := pos, txLast := last, txWord := word }) ∧
          (s.sideLanes d 3 ≠ [] → t.reg PEER.RETRANSMITS =
            if (s.sideOf d).unacked = [] then s.reg PEER.RETRANSMITS
            else min (s.reg PEER.RETRANSMITS + (s.sideOf d).unacked.length) 0xFFFFFFFF)) ∧
        exec (.peerLost d) s = .next (settle s ((((s.setSide d fun x => { x with
          up := false, unacked := [], ahead := [], queue := [], partials := [] }).error pPEER E.PEER_LOST
            [.f 1 d.val, .f 2 (s.sideOf d).peerDev]).bump PEER.LOSSES 1).raise pPEER 2).forwardPump))) ∧
    (s.fragmentsWait = true → ∀ dev letter, s.forwardLetter dev letter = { s with peers := { s.peers with forward := s.peers.forward ++ [(dev, letter)] } }) ∧
    (s.fragmentsWait = false → s.peers.forward = [] → ∀ dev letter, s.forwardLetter dev letter =
      (fragments letter.length 0 letter).foldl (fun s f => s.peerToDevice 6 dev (leBytes 4 f.1 ++ leBytes 4 letter.length ++ f.2)) s) ∧
    (∀ (r : List Byte) (m : Nat), let served := s.served (s.ringRegions s.led.written 1)
      (s.enabled pLEDGER = true → s.led.held = [] → served = false → exec (.tallyMessage r { corrected := m }) s = .next (settle s s)) ∧
      (∃ t, exec (.tallyMessage r { corrected := m }) s = .next t ∧ t.slots = s.slots ∧ t.lanes = s.lanes ∧
        ((s.enabled pLEDGER = true ∧ s.led.held = [] ∧ served = true) ∨ (s.enabled pLEDGER = false ∧ s.led.held.length < 1024) →
          t.reg LEDGER.RELAYED_IN = min (s.reg LEDGER.RELAYED_IN + 1) 0xFFFFFFFF) ∧
        (s.enabled pLEDGER = false → 1024 ≤ s.led.held.length → t.reg LEDGER.RELAYED_IN = s.reg LEDGER.RELAYED_IN ∧
          t.reg LEDGER.HELD_LOST = min (s.reg LEDGER.HELD_LOST + 1) 0xFFFFFFFF))) ∧
    (∀ (d : Fin 2) (src : Fin 1024) (body : List Byte), 9 ≤ body.length → body.length ≤ 624 →
      let v : State := s.inboxTaken 6 body
      let off := fld body 0 4
      let total := fld body 4 4
      let bytes := body.drop 8
      (s.served (s.fragRegions d src body) = false → ∀ mem, exec (.letterFragment d src body mem) s = .next (settle s s)) ∧
      (off ≠ 0 → (∀ p ∈ (s.sideOf d).partials, p.1 ≠ src.val) → exec (.letterFragment d src body {}) s = .next (settle s
        ((((v.setSide d fun x => { x with fwdLeft := ((x.fwdLeft + 0) % 2 ^ 32 + bytes.length) % 2 ^ 32 }).error pPEER E.PEER_MSG_BAD
          [.f 8 (leNat ((peerMessage 6 0 s.deviceNo src body).take 8))]).bump PEER.MSG_BADS 1).raise pPEER 4))) ∧
      (off = 0 → total = bytes.length → s.served (s.fragRegions d src body) = true → (∀ p ∈ (s.sideOf d).partials, p.1 ≠ src.val) → s.peers.side.length = 2 → (s.sideOf d).fwdLeft < 2 ^ 32 →
        ∃ t, exec (.letterFragment d src body {}) s = .next t ∧ t.slots = s.slots ∧ t.act = s.act ∧
          t.sideOf d = { s.sideOf d with letters := (s.sideOf d).letters ++ [((s.sideOf d).fwdPos, total)],
                                         fwdPos := (s.sideOf d).fwdPos + (total + 7) / 8 * 8 } ∧
          ((s.sideOf d).fwdPos % s.fwdBytes + total + 8 ≤ s.fwdBytes → s.fwdBase d + s.fwdBytes ≤ scratchBase →
            memWf s.mem = true → t.readMem (s.fwdBase d + (s.sideOf d).fwdPos % s.fwdBytes) total = bytes)) ∧
      (off = 0 → bytes.length < total → s.served (s.fragRegions d src body) = true → (∀ p ∈ (s.sideOf d).partials, p.1 ≠ src.val) → s.peers.side.length = 2 → (s.sideOf d).fwdLeft < 2 ^ 32 →
        ∃ t, exec (.letterFragment d src body {}) s = .next t ∧ t.slots = s.slots ∧ t.act = s.act ∧
          t.sideOf d = { s.sideOf d with
            partials := (s.sideOf d).partials ++ [(src.val, (s.sideOf d).fwdPos, total, bytes.length)]
            fwdPos := (s.sideOf d).fwdPos + (total + 7) / 8 * 8 }))

/-- O55. Whatever command a step runs, from a state whose memories and registers are in their canonical form and whose lists have the
lengths that the spec's units give them, if the step answers a next state, then it is such a state too; statements of this file that read
back what they write may take it as a premise. -/
def Obligations.ShapeKept : Prop :=
  ∀ (s t : State), wellShaped s → step s = .next t → wellShaped t

/-- O56. A write of MAIL.GO or ABORT that came in the hand-over cycle waits one edge longer. At the edge an ABORT empties a slot that is
GATHERING or STAGED and sets the end of one that is LEADING or WRITING to its composed lines, and has no effect on another; it goes before
a GO for the same slot. A GO for a STAGED slot that is next in job-number order, while composition makes idle lines and no slot is LEADING
or WRITING, makes it LEADING with line 0 taken in this line time, with its JOB_STARTED record and D at 0 while a fault condition lasts,
and discards the idle lines due at or after its line 0; any other GO has no effect. LEADING, WRITING and DRAINING follow the lines that
row 0 writes, and each change raises its interrupt (R36, R63, R71 to R75, R82, R146, R316, R657; that a plan which its job's end or loss
withdraws goes between the ABORTs and the GOs is the model's order, log 29). -/
def Obligations.JobSlots : Prop :=
  ∀ (s : State) (n : Fin 4), wellShaped s →
    let x := s.slotOf n
    let left (l : List SlotCmd) : State := { s with mail := { s.mail with cmds := l } }
    let go : SlotCmd := { slot := n, abort := false, late := false }
    let ab : SlotCmd := { slot := n, abort := true, late := false }
    (∀ c : SlotCmd, c.late = true → s.mail.cmds = [c] → s.slotCmds = (left [{ c with late := false }]).checkPlan) ∧
    (∀ l, l = [ab] ∨ l = [go, ab] ∨ l = [ab, go] → s.mail.cmds = l →
      (x.st = .gathering ∨ x.st = .staged → (s.slotCmds.slotOf n).st = .empty ∧ s.slotCmds.mail.cmds = [] ∧
        ∀ m : Fin 4, m ≠ n → (s.slotCmds.slotOf m).st = (s.slotOf m).st) ∧
      (x.st = .leading ∨ x.st = .writing → (s.slotCmds.slotOf n).ends = some x.composed ∧ (s.slotCmds.slotOf n).supply = x.composed ∧
        (s.slotCmds.slotOf n).st = x.st ∧ (s.slotCmds.slotOf n).job = x.job ∧ s.slotCmds.mail.cmds = []) ∧
      (x.st = .empty ∨ x.st = .draining → s.slotCmds = (left []).checkPlan)) ∧
    (s.mail.cmds = [go] →
      let may : Prop := s.enabled pTILE = true ∧ x.st = .staged ∧ s.comp.on = none ∧
        (∀ m : Fin 4, (s.slotOf m).st ≠ .leading ∧ (s.slotOf m).st ≠ .writing) ∧ s.successor s.comp.last = some n.val
      (¬ may → s.slotCmds = (left []).checkPlan) ∧
      (may → (∀ m : Fin 4, m ≠ n → (s.slotOf m).st ≠ .staged ∨ (s.slotOf m).take = none) →
        let t := s.slotCmds
        (t.slotOf n).st = .leading ∧ (t.slotOf n).take = some s.lineTime ∧ t.comp.on = some n.val ∧ t.comp.last = some x.job ∧
        t.comp.plan = none ∧ (∀ r ∈ t.comp.recs, r.2.st = 0 → r.2.taken = false → r.1 < s.lineTime + x.lead) ∧
        (s.web.lasting ≠ [] → s.replaying = false → (t.slotOf n).damage = 0) ∧
        ((s.waitingAt pMAIL).length < 16 → ∃ r ∈ t.waitingAt pMAIL, r.code = V.JOB_STARTED ∧ r.aux = some s.lineTime ∧
          r.flds = [.f 4 x.job, .f 1 n.val, .lt (s.lineTime + x.lead)]))) ∧
    (x.start = none → s.advance n = s) ∧
    (∀ t0, x.start = some t0 →
      (x.st ≠ .leading → x.st ≠ .writing → s.advance n = s) ∧
      (x.st = .leading → s.lineTime < t0 → s.advance n = s) ∧
      ((∀ e, x.ends = some e → s.lineTime < t0 + e) →
        (x.st = .leading → t0 ≤ s.lineTime → s.advance n = s.slotTo n .writing) ∧ (x.st = .writing → s.advance n = s)) ∧
      (∀ e, x.ends = some e → t0 + e ≤ s.lineTime →
        (x.st = .leading → t0 ≤ s.lineTime → s.advance n = (s.slotTo n .writing).slotTo n .draining) ∧
        (x.st = .writing → s.advance n = s.slotTo n .draining))) ∧
    (∀ st, x.st ≠ st → (s.slotTo n st).slotOf n = { x with st := st } ∧ bit ((s.slotTo n st).reg (IRQ_RAW pMAIL)) 2 = true ∧
      (s.slotTo n st).mem = s.mem ∧ ∀ m : Fin 4, m ≠ n → (s.slotTo n st).slotOf m = s.slotOf m)

/-- O57. At its event every pending set that is not late becomes active, register by register, and is gone, and a late one waits for the
next; the shadowed registers of no group take their programmed values, or the value that a late write kept back; no other active copy
changes. A change of the active value of a covered register has its REG_WRITE record, and no change has none. Where no health report,
takeover, reload or beam port write waits, the hand-over at the start of a row 0 line time is that of its registers and sets, with the
tile slots and lanes that follow the maps (R33 to R37, R582). -/
def Obligations.LineHandOver : Prop :=
  ∀ (s : State) (e : HandOver), wellShaped s →
    (let due (q : Pend) : Bool := groupEvent q.page q.group == e && !q.late
     let vs := (s.pend.filter due).flatMap (·.vals)
     let t := s.takePending e
     (vs.map (·.1)).Nodup →
       (∀ r ∈ vs, t.active r.1 = r.2.toNat) ∧ (∀ a, a ∉ vs.map (·.1) → t.active a = s.active a) ∧
       t.pend = (s.pend.filter fun q => !due q).map (fun q => if groupEvent q.page q.group = e then { q with late := false } else q) ∧
       t.mem = s.mem ∧ t.slots = s.slots ∧ t.heldBack = s.heldBack) ∧
    (let t := s.takeShadows e
     e ≠ .none →
     (∀ a ∈ shadowRegs e, t.active a = ((keyGet s.heldBack a).map (·.toNat)).getD (s.reg a) ∧ keyGet t.heldBack a = none) ∧
     (∀ a, a ∉ shadowRegs e → t.active a = s.active a ∧ keyGet t.heldBack a = keyGet s.heldBack a) ∧
     t.pend = s.pend ∧ t.mem = s.mem ∧ t.slots = s.slots) ∧
    (∀ u r, (s.active r.1 = r.2.toNat → s.activate u r = s) ∧
      (∀ p, s.active r.1 ≠ r.2.toNat → regWriteCovered r.1 = true → mapSlot? r.1 = none → pageOf r.1 = some p →
        s.activate u r = (s.setActive r.1 r.2.toNat).event p V.REG_WRITE [.f 1 p, .f 2 (r.1 % 0x1000), .f 4 r.2.toNat, .lt u])) ∧
    (s.jl.reports = [] → s.comp.swaps = [] → (∀ q ∈ s.pend, q.group = 2 → q.page ≠ pFRANK ∧ q.page ≠ pSPLIT) →
      s.handOverLine =
        (((s.takeShadows .line).takePending .line).mapTaken ((List.range s.tileSlots).map s.tileOf)).mapSync.patrolSync)

/-- O58. The levels of a line begin at 0; a source blends its levels into its columns, a later source of a layer covers an earlier one,
and a higher layer blends over a lower one. The tiles make a planned line, where nothing disturbs them, in its lead ring slot: its levels
where it has no cause of R658, else level 0, with its record in the record ring, its counts, and every cell position void on a line that
has a cause. A row's frame has one segment for each strip, with 4,096 of its codes, and the seal of a segment is the CRC-32C of its
16-byte prefix and its codes; a row without a line has empty segments (R133, R134, R144, R147, R150, R158, R206, R270, R658). -/
def Obligations.ComposedLines : Prop :=
  (∀ (c h : Nat) (q : Source), h < c → q.layer < 8 → q.first + q.px.length ≤ c →
    (composeLevels c []).getD h 0 = 0 ∧
    (composeLevels c [q]).getD h 0 = if q.first ≤ h ∧ h < q.first + q.px.length
      then BitVec.ofNat 8 (blend q.op 0 (q.px.getD (h - q.first) 0).toNat) else 0) ∧
  (∀ (c h : Nat) (a b : Source), h < c → a.layer < 8 → b.layer < 8 → a.first + a.px.length ≤ c → b.first + b.px.length ≤ c →
    a.first ≤ h → h < a.first + a.px.length → b.first ≤ h → h < b.first + b.px.length →
    let la := (a.px.getD (h - a.first) 0).toNat
    let lb := (b.px.getD (h - b.first) 0).toNat
    let put (q : Source) (v l : Nat) : Byte := BitVec.ofNat 8 (blend q.op v l)
    (a.layer = b.layer → (composeLevels c [a, b]).getD h 0 = put b 0 lb) ∧
    (a.layer < b.layer → (composeLevels c [a, b]).getD h 0 = put b (put a 0 la).toNat lb) ∧
    (b.layer < a.layer → (composeLevels c [a, b]).getD h 0 = put a (put b 0 lb).toNat la)) ∧
  (∀ (s : State) (p : Plan), wellShaped s → s.comp.plan = some p →
    (s.enabled pTILE = false → s.composeLine {} = { s with comp := { s.comp with plan := none } }) ∧
    (s.enabled pTILE = true → s.replaying = false → s.comp.votes = [] →
      let x := s.slotOf p.rcd.slot
      let srcs := if p.rcd.st = 0 then [] else s.sources x p.rcd.line
      let cause := if p.rcd.st = 0 then 0 else if x.damage ≤ p.rcd.line then 1 else if p.cause ≠ 0 then p.cause
        else if budgetMask x srcs = 0 then 0 else 4
      let at_ := s.leadAddr p.lt
      s.badGlyphs srcs = [] → cause ≠ 0 ∨ s.served (srcs.flatMap (·.reads)) = true → s.comp.lead.isSome = true → s.hbm.waiting = [] →
      s.hbmServes at_ s.columns = true → at_ + s.columns ≤ scratchBase →
      let t := s.composeLine {}
      t.readMem at_ s.columns = (if cause = 0 then composeLevels s.columns srcs else List.replicate s.columns 0) ∧
      t.comp.plan = none ∧ t.comp.count = s.comp.count + 1 ∧ t.reg TILE.LINES = min (s.reg TILE.LINES + 1) 0xFFFFFFFF ∧
      (p.rcd.st = 0 → keyGet t.comp.recs p.lt = some { p.rcd with num := s.comp.count }) ∧
      (p.rcd.st ≠ 0 → cause = 0 → keyGet t.comp.recs p.lt = some { p.rcd with
        num := s.comp.count, st := if posMask (srcs.filterMap (·.prov)) = 0 then 1 else 2
        prov := posMask (srcs.filterMap (·.prov)), void := x.maskedAt (p.rcd.line / x.repeatLines) }) ∧
      (cause ≠ 0 → t.reg MAIL.STARVED_LINES = min (s.reg MAIL.STARVED_LINES + 1) 0xFFFFFFFF ∧ ∃ v, keyGet t.comp.recs p.lt = some { p.rcd with
        num := s.comp.count, st := 3, void := v, cause := if cause = 1 then rDAMAGE else rSTARVED } ∧ ∀ j < x.across, bit v j = true))) ∧
  (∀ (s : State) (v k : Nat) (d : SegData) (codes : List Byte) (cross : Nat → List (Nat × Nat)) (env : LineEnv),
    let seg (m : Nat) : SegData := { d with row := k, strip := m, codes := (codes.drop (4096 * m)).take 4096 }
    let t := s.rowSegs v k d codes cross
    t.segs = s.segs ++ (List.range s.strips).map (fun m => { lt := v, data := seg m, cells := cross m }) ∧
    t.led.seals = ((List.range s.strips).map fun m => (v, seg m)).reverse ++ s.led.seals ∧ t.mem = s.mem ∧ t.slots = s.slots ∧
    (v < k * s.spacing ∨ (∀ r, keyGet s.comp.recs (v - k * s.spacing) = some r → r.st = 0) →
      s.rowFrame v env k = s.rowSegs v k {} [] fun _ => [])) ∧
  (∀ d : SegData, d.sealOf = crc32c (leBytes 4 d.job ++ leBytes 6 d.line ++ leBytes 1 d.row ++ leBytes 1 d.strip ++ leBytes 1 d.mode ++
    [0, 0, 0] ++ if d.codes = [] then List.replicate 4096 0 else d.codes))

/-- O59. The shares of a pixel's dose and the deficit add up to the dose, a row takes at most its capacity and a row that does not serve
takes none; a code lies within the dose mode's range. An entry that changes keeps its old value in the change log for the lines below E =
LINE_TIME + 1, so that what those lines use stands; where the log is full the overflow is counted; where the word shows a double-bit error
nothing is written and the error is recorded. A committed beam port write changes the fields that its mask selects and shows its outcome,
and does nothing in a replay. A health report makes a good beam of its range DEAD, makes a DEAD one good again only while REVIVE is 1, and
counts beams outside the head (R197, R200, R207 to R217, R512, R518, R602). -/
def Obligations.DoseAndBeams : Prop :=
  (∀ (t rot : Nat) (caps : List (Option Nat)), caps.length ≤ 5 →
    let r := splitDose t caps rot
    r.1.length = 5 ∧ sumNat r.1 + r.2 = t ∧ (∀ k < 5, r.1.getD k 0 ≤ (caps.getD k none).getD 0)) ∧
  (∀ sh e mode, beamCode 0 e mode = 0 ∧ beamCode sh e mode ≤ beamMax mode ∧ (beamLive e = false → beamCap e mode = 0)) ∧
  (∀ o d m, o < 2 ^ 32 → d < 2 ^ 32 → mergeEntry o d m < 2 ^ 32 ∧
    bits (mergeEntry o d m) 9 0 = (if bit m 0 then bits d 9 0 else bits o 9 0) ∧
    bits (mergeEntry o d m) 15 10 = (if bit m 1 then bits d 15 10 else bits o 15 10) ∧
    bits (mergeEntry o d m) 17 16 = (if bit m 2 then bits d 17 16 else bits o 17 16) ∧ bits (mergeEntry o d m) 31 18 = bits o 31 18) ∧
  (∀ (s : State) (m k c new : Nat), wellShaped s → k < 5 → c < 65536 → new < 2 ^ 32 → s.active SPLIT.BEAM_LO + 4 * 327680 ≤ scratchSize →
    let old := s.beamEntry k c
    let t := s.changeEntry m k c new
    (new = old → t = s) ∧
    (new ≠ old → s.badEntries k c 1 ≠ [] → t.mem = s.mem ∧ t.split = s.split ∧ bit (t.reg (IRQ_RAW pSCR)) 2 = true) ∧
    (new ≠ old → s.badEntries k c 1 = [] → t.beamEntry k c = new ∧
      (∀ i < 5, ∀ j < 65536, i ≠ k ∨ j ≠ c → t.beamEntry i j = s.beamEntry i j) ∧
      (s.split.log.length < 16384 → t.split.log = s.split.log ++ [{ row := k, col := c, e := s.lineTime + 1, old := old }] ∧
        t.slots = s.slots ∧ t.reg SPLIT.LOG_PEAK = max (s.reg SPLIT.LOG_PEAK) (s.split.log.length + 1) ∧
        ∀ l ≤ s.lineTime, t.plannedRow l k = s.plannedRow l k) ∧
      (16384 ≤ s.split.log.length → t.split.log = s.split.log ∧ bit (t.reg (IRQ_RAW pSPLIT)) 4 = true ∧
        t.reg SPLIT.LOG_OVERFLOWS = min (s.reg SPLIT.LOG_OVERFLOWS + 1) 0xFFFFFFFF))) ∧
  (∀ s : State, wellShaped s → s.active SPLIT.BEAM_LO + 4 * 327680 ≤ scratchSize →
    let row := bits (s.active SPLIT.BEAM_SEL) 18 16
    let col := bits (s.active SPLIT.BEAM_SEL) 15 0
    let n := bits (s.active SPLIT.BEAM_COUNT) 16 0
    let t := s.beamPort
    (s.replaying = true → t.mem = s.mem ∧ t.split = s.split) ∧
    (s.replaying = false → t.reg SPLIT.BEAM_STATUS = 2 ^ 31 + (if n = 0 then 1 else 0) ∧ bit (t.reg (IRQ_RAW pSPLIT)) 6 = true ∧
      (n = 0 → t.mem = s.mem) ∧
      (n = 1 → row < 5 → s.badEntries row col 1 = [] →
        t.beamEntry row col = mergeEntry (s.beamEntry row col) (s.active SPLIT.BEAM_DATA) (s.active SPLIT.BEAM_WMASK)))) ∧
  (∀ (s : State) (k c number : Nat) (failed : Bool), wellShaped s → s.active SPLIT.BEAM_LO + 4 * 327680 ≤ scratchSize →
    let r : HealthReport := { number := number, full := false, msgs := [{ row := k, failed := failed, first := c, count := 1 }] }
    let e := s.beamEntry k c
    let revive := bit (s.reg SPLIT.HEALTH_CFG) 31
    let t := s.takeReport r
    (s.rows ≤ k ∨ s.columns ≤ c → t = s.bump SPLIT.IGNORED_REPORTS 1) ∧
    (k < s.rows → c < s.columns → k < 5 → c < 65536 →
      (failed = true → bits e 17 16 ≠ 0 → t = s) ∧ (failed = false → bits e 17 16 ≠ 1 ∨ revive = false → t = s) ∧
      (s.badEntries k c 1 = [] → (failed = true ∧ bits e 17 16 = 0) ∨ (failed = false ∧ bits e 17 16 = 1 ∧ revive = true) →
        t.beamEntry k c = (if failed then e + 2 ^ 16 else e - 2 ^ 16) ∧ bit (t.reg (IRQ_RAW pSPLIT)) 3 = true ∧
        t.reg SPLIT.HEALTH_REPORTS = min (s.reg SPLIT.HEALTH_REPORTS + 1) 0xFFFFFFFF)))

/-- O60. The characters of a value are its low digits, most significant first, and a check digit makes the weighted sum a multiple of 10.
A COUNTER field gives a cell its counter, which then moves by STEP modulo the field's modulus, with a seal record unless it is self-
confirming; a value that overflows or misses a glyph voids its cell, is counted for each, and draws nothing (the last is the model's
choice, log 77). A vote fails the one tile of three that differs, or the active tile where both patrol tiles differ from it or its only
one does; an active tile that fails is replaced by the first patrol tile at the next hand-over, where both copies of MAP take its number
(R140 to R142, R163, R168 to R170, R183). -/
def Obligations.FranksAndTiles : Prop :=
  (∀ b n v, 0 < b → (valueDigits b n v).length = n ∧ (valueDigits b n v).foldl (fun a d => a * b + d) 0 = v % b ^ n ∧
    ∀ d ∈ valueDigits b n v, d < b) ∧
  (∀ ds scheme, checkDigit ds scheme < 10 ∧
    (sumNat (ds.reverse.zipIdx.map fun p => checkTerm scheme p.2 p.1) + checkDigit ds scheme) % 10 = 0) ∧
  (∀ (a : Assign) (n : Fin 4) (r num pos : Nat) (f : Field), wellShaped a.st → a.st.replaying = false → (a.st.slotOf n).fieldOf num = some f →
    let s := a.st
    let x := s.slotOf n
    let v := f.counter
    let idx := x.cellIndex r pos
    let u : State := (s.setField n num fun g => { g with counter := (v + f.step) % f.modulus, reload := none }).bump FRANK.ASSIGNED 1
    let recs := if f.selfConfirm then a.recs
      else a.recs ++ [(pos, leBytes 1 num ++ leBytes 1 0 ++ leBytes 2 0 ++ leBytes 4 idx ++ leBytes 8 v)]
    let b := a.counter n r num pos false
    (v < f.base ^ f.digits → (s.glyphsOf x f v).isSome = true → b =
      { st := u.setSlot n fun x => { x with values := x.values ++ [{ field := num, cell := idx, v := v }] }, recs := recs, fails := a.fails }) ∧
    (f.base ^ f.digits ≤ v ∨ s.glyphsOf x f v = none → b.recs = recs ∧ b.st.slots = u.slots ∧ b.st.mem = s.mem ∧
      b.fails = a.fails ++ [{ pos := pos, field := num, more := [.f 8 v] }] ∧
      b.st.reg FRANK.OVERFLOWS = (if f.base ^ f.digits ≤ v then min (s.reg FRANK.OVERFLOWS + 1) 0xFFFFFFFF else s.reg FRANK.OVERFLOWS) ∧
      b.st.reg FRANK.MISSING_GLYPHS =
        (if s.glyphsOf x f v = none then min (s.reg FRANK.MISSING_GLYPHS + 1) 0xFFFFFFFF else s.reg FRANK.MISSING_GLYPHS))) ∧
  (∀ (a : Assign) (pos : Nat), a.seal? pos = if (∀ r ∈ a.recs, r.1 ≠ pos) then none
    else some (crc32c ((a.recs.filter fun r => r.1 == pos).flatMap (·.2)))) ∧
  (∀ (s : State) (v : Vote) errs levels num line, wellShaped s → s.replaying = false → v.slot < s.tileSlots →
    let out (p : Nat) := tileOut errs p (slotLevels levels v.slot)
    let act := s.tileOf v.slot
    let t := s.vote v errs levels num line
    let replaced (p : Nat) : Prop := t.comp.failed = s.comp.failed ++ [act] ∧
      t.comp.swaps = s.comp.swaps ++ [{ slot := v.slot, phys := p, lt := s.lineTime + 1 }]
    t.reg TILE.PATROL_CHECKS = min (s.reg TILE.PATROL_CHECKS + s.patrols.length) 0xFFFFFFFF ∧ t.mem = s.mem ∧
    (s.patrols = [] → t.comp.failed = s.comp.failed ∧ t.comp.swaps = s.comp.swaps) ∧
    (∀ p, s.patrols = [p] → (out p = out act → t.comp.failed = s.comp.failed ∧ t.comp.swaps = s.comp.swaps) ∧ (out p ≠ out act → replaced p)) ∧
    (∀ p q, s.patrols = [p, q] →
      (out p = out act → out q = out act → t.comp.failed = s.comp.failed ∧ t.comp.swaps = s.comp.swaps) ∧
      (out p ≠ out act → out q = out act → t.comp.failed = s.comp.failed ++ [p] ∧ t.comp.swaps = s.comp.swaps) ∧
      (out p = out act → out q ≠ out act → t.comp.failed = s.comp.failed ++ [q] ∧ t.comp.swaps = s.comp.swaps) ∧
      (out p ≠ out act → out q ≠ out act → replaced p))) ∧
  (∀ (s : State) (w : TileSwap), wellShaped s → w.slot < 32 → w.phys < 34 →
    let t := s.tileSwap w
    t.tileOf w.slot = w.phys ∧ t.reg (TILE.MAP w.slot) = w.phys ∧ t.reg TILE.TAKEOVERS = min (s.reg TILE.TAKEOVERS + 1) 0xFFFFFFFF ∧
    t.mem = s.mem ∧ t.slots = s.slots ∧ ∀ k < 32, k ≠ w.slot → t.tileOf k = s.tileOf k)
end

