-- ==== Sys2Proof/Laws/State.lean ====
section
/-! SUPPORT. The fields of State under each named update, so that no later proof unfolds a record update. -/

namespace Sys2Proof.Laws
open Sys2Proof.Machine

/-! ### setReg, setActive, writeMem, emit -/

@[simp] theorem setReg_pending (s : State) (a v : Nat) : (s.setReg a v).pending = s.pending := rfl
@[simp] theorem setReg_act (s : State) (a v : Nat) : (s.setReg a v).act = s.act := rfl
@[simp] theorem setReg_pend (s : State) (a v : Nat) : (s.setReg a v).pend = s.pend := rfl
@[simp] theorem setReg_heldBack (s : State) (a v : Nat) : (s.setReg a v).heldBack = s.heldBack := rfl
@[simp] theorem setReg_mem (s : State) (a v : Nat) : (s.setReg a v).mem = s.mem := rfl
@[simp] theorem setReg_irq (s : State) (a v : Nat) : (s.setReg a v).irq = s.irq := rfl
@[simp] theorem setReg_led (s : State) (a v : Nat) : (s.setReg a v).led = s.led := rfl
@[simp] theorem setReg_replay (s : State) (a v : Nat) : (s.setReg a v).replay = s.replay := rfl
@[simp] theorem setReg_lineTime (s : State) (a v : Nat) : (s.setReg a v).lineTime = s.lineTime := rfl
@[simp] theorem setReg_time (s : State) (a v : Nat) : (s.setReg a v).time = s.time := rfl
@[simp] theorem setReg_eth (s : State) (a v : Nat) : (s.setReg a v).eth = s.eth := rfl
@[simp] theorem setReg_lanes (s : State) (a v : Nat) : (s.setReg a v).lanes = s.lanes := rfl
@[simp] theorem setReg_jl (s : State) (a v : Nat) : (s.setReg a v).jl = s.jl := rfl
@[simp] theorem setReg_peers (s : State) (a v : Nat) : (s.setReg a v).peers = s.peers := rfl
@[simp] theorem setReg_slots (s : State) (a v : Nat) : (s.setReg a v).slots = s.slots := rfl
@[simp] theorem setReg_mail (s : State) (a v : Nat) : (s.setReg a v).mail = s.mail := rfl
@[simp] theorem setReg_comp (s : State) (a v : Nat) : (s.setReg a v).comp = s.comp := rfl
@[simp] theorem setReg_sealU (s : State) (a v : Nat) : (s.setReg a v).sealU = s.sealU := rfl
@[simp] theorem setReg_cmp (s : State) (a v : Nat) : (s.setReg a v).cmp = s.cmp := rfl
@[simp] theorem setReg_hbm (s : State) (a v : Nat) : (s.setReg a v).hbm = s.hbm := rfl
@[simp] theorem setReg_scr (s : State) (a v : Nat) : (s.setReg a v).scr = s.scr := rfl
@[simp] theorem setReg_vault (s : State) (a v : Nat) : (s.setReg a v).vault = s.vault := rfl
@[simp] theorem setReg_dma (s : State) (a v : Nat) : (s.setReg a v).dma = s.dma := rfl
@[simp] theorem setReg_host (s : State) (a v : Nat) : (s.setReg a v).host = s.host := rfl
@[simp] theorem setReg_chk (s : State) (a v : Nat) : (s.setReg a v).chk = s.chk := rfl
@[simp] theorem setReg_loops (s : State) (a v : Nat) : (s.setReg a v).loops = s.loops := rfl
@[simp] theorem setReg_segs (s : State) (a v : Nat) : (s.setReg a v).segs = s.segs := rfl
@[simp] theorem setReg_split (s : State) (a v : Nat) : (s.setReg a v).split = s.split := rfl
@[simp] theorem setReg_place (s : State) (a v : Nat) : (s.setReg a v).place = s.place := rfl
@[simp] theorem setReg_samples (s : State) (a v : Nat) : (s.setReg a v).samples = s.samples := rfl
@[simp] theorem setReg_sampleRun (s : State) (a v : Nat) : (s.setReg a v).sampleRun = s.sampleRun := rfl
@[simp] theorem setReg_web (s : State) (a v : Nat) : (s.setReg a v).web = s.web := rfl
@[simp] theorem setReg_axes (s : State) (a v : Nat) : (s.setReg a v).axes = s.axes := rfl
@[simp] theorem setReg_headSafe (s : State) (a v : Nat) : (s.setReg a v).headSafe = s.headSafe := rfl
@[simp] theorem setReg_life (s : State) (a v : Nat) : (s.setReg a v).life = s.life := rfl
@[simp] theorem setReg_power (s : State) (a v : Nat) : (s.setReg a v).power = s.power := rfl
@[simp] theorem setReg_tap (s : State) (a v : Nat) : (s.setReg a v).tap = s.tap := rfl
@[simp] theorem setReg_free (s : State) (a v : Nat) : (s.setReg a v).free = s.free := rfl
@[simp] theorem setReg_out (s : State) (a v : Nat) : (s.setReg a v).out = s.out := rfl

@[simp] theorem setActive_pending (s : State) (a v : Nat) : (s.setActive a v).pending = s.pending := rfl
@[simp] theorem setActive_regs (s : State) (a v : Nat) : (s.setActive a v).regs = s.regs := rfl
@[simp] theorem setActive_pend (s : State) (a v : Nat) : (s.setActive a v).pend = s.pend := rfl
@[simp] theorem setActive_heldBack (s : State) (a v : Nat) : (s.setActive a v).heldBack = s.heldBack := rfl
@[simp] theorem setActive_mem (s : State) (a v : Nat) : (s.setActive a v).mem = s.mem := rfl
@[simp] theorem setActive_irq (s : State) (a v : Nat) : (s.setActive a v).irq = s.irq := rfl
@[simp] theorem setActive_led (s : State) (a v : Nat) : (s.setActive a v).led = s.led := rfl
@[simp] theorem setActive_replay (s : State) (a v : Nat) : (s.setActive a v).replay = s.replay := rfl
@[simp] theorem setActive_lineTime (s : State) (a v : Nat) : (s.setActive a v).lineTime = s.lineTime := rfl
@[simp] theorem setActive_time (s : State) (a v : Nat) : (s.setActive a v).time = s.time := rfl
@[simp] theorem setActive_eth (s : State) (a v : Nat) : (s.setActive a v).eth = s.eth := rfl
@[simp] theorem setActive_lanes (s : State) (a v : Nat) : (s.setActive a v).lanes = s.lanes := rfl
@[simp] theorem setActive_jl (s : State) (a v : Nat) : (s.setActive a v).jl = s.jl := rfl
@[simp] theorem setActive_peers (s : State) (a v : Nat) : (s.setActive a v).peers = s.peers := rfl
@[simp] theorem setActive_slots (s : State) (a v : Nat) : (s.setActive a v).slots = s.slots := rfl
@[simp] theorem setActive_mail (s : State) (a v : Nat) : (s.setActive a v).mail = s.mail := rfl
@[simp] theorem setActive_comp (s : State) (a v : Nat) : (s.setActive a v).comp = s.comp := rfl
@[simp] theorem setActive_sealU (s : State) (a v : Nat) : (s.setActive a v).sealU = s.sealU := rfl
@[simp] theorem setActive_cmp (s : State) (a v : Nat) : (s.setActive a v).cmp = s.cmp := rfl
@[simp] theorem setActive_hbm (s : State) (a v : Nat) : (s.setActive a v).hbm = s.hbm := rfl
@[simp] theorem setActive_scr (s : State) (a v : Nat) : (s.setActive a v).scr = s.scr := rfl
@[simp] theorem setActive_vault (s : State) (a v : Nat) : (s.setActive a v).vault = s.vault := rfl
@[simp] theorem setActive_dma (s : State) (a v : Nat) : (s.setActive a v).dma = s.dma := rfl
@[simp] theorem setActive_host (s : State) (a v : Nat) : (s.setActive a v).host = s.host := rfl
@[simp] theorem setActive_chk (s : State) (a v : Nat) : (s.setActive a v).chk = s.chk := rfl
@[simp] theorem setActive_loops (s : State) (a v : Nat) : (s.setActive a v).loops = s.loops := rfl
@[simp] theorem setActive_segs (s : State) (a v : Nat) : (s.setActive a v).segs = s.segs := rfl
@[simp] theorem setActive_split (s : State) (a v : Nat) : (s.setActive a v).split = s.split := rfl
@[simp] theorem setActive_place (s : State) (a v : Nat) : (s.setActive a v).place = s.place := rfl
@[simp] theorem setActive_samples (s : State) (a v : Nat) : (s.setActive a v).samples = s.samples := rfl
@[simp] theorem setActive_sampleRun (s : State) (a v : Nat) : (s.setActive a v).sampleRun = s.sampleRun := rfl
@[simp] theorem setActive_web (s : State) (a v : Nat) : (s.setActive a v).web = s.web := rfl
@[simp] theorem setActive_axes (s : State) (a v : Nat) : (s.setActive a v).axes = s.axes := rfl
@[simp] theorem setActive_headSafe (s : State) (a v : Nat) : (s.setActive a v).headSafe = s.headSafe := rfl
@[simp] theorem setActive_life (s : State) (a v : Nat) : (s.setActive a v).life = s.life := rfl
@[simp] theorem setActive_power (s : State) (a v : Nat) : (s.setActive a v).power = s.power := rfl
@[simp] theorem setActive_tap (s : State) (a v : Nat) : (s.setActive a v).tap = s.tap := rfl
@[simp] theorem setActive_free (s : State) (a v : Nat) : (s.setActive a v).free = s.free := rfl
@[simp] theorem setActive_out (s : State) (a v : Nat) : (s.setActive a v).out = s.out := rfl

@[simp] theorem writeMem_pending (s : State) (a : Nat) (bs : List Byte) : (s.writeMem a bs).pending = s.pending := rfl
@[simp] theorem writeMem_regs (s : State) (a : Nat) (bs : List Byte) : (s.writeMem a bs).regs = s.regs := rfl
@[simp] theorem writeMem_act (s : State) (a : Nat) (bs : List Byte) : (s.writeMem a bs).act = s.act := rfl
@[simp] theorem writeMem_pend (s : State) (a : Nat) (bs : List Byte) : (s.writeMem a bs).pend = s.pend := rfl
@[simp] theorem writeMem_heldBack (s : State) (a : Nat) (bs : List Byte) : (s.writeMem a bs).heldBack = s.heldBack := rfl
@[simp] theorem writeMem_irq (s : State) (a : Nat) (bs : List Byte) : (s.writeMem a bs).irq = s.irq := rfl
@[simp] theorem writeMem_led (s : State) (a : Nat) (bs : List Byte) : (s.writeMem a bs).led = s.led := rfl
@[simp] theorem writeMem_replay (s : State) (a : Nat) (bs : List Byte) : (s.writeMem a bs).replay = s.replay := rfl
@[simp] theorem writeMem_lineTime (s : State) (a : Nat) (bs : List Byte) : (s.writeMem a bs).lineTime = s.lineTime := rfl
@[simp] theorem writeMem_time (s : State) (a : Nat) (bs : List Byte) : (s.writeMem a bs).time = s.time := rfl
@[simp] theorem writeMem_eth (s : State) (a : Nat) (bs : List Byte) : (s.writeMem a bs).eth = s.eth := rfl
@[simp] theorem writeMem_lanes (s : State) (a : Nat) (bs : List Byte) : (s.writeMem a bs).lanes = s.lanes := rfl
@[simp] theorem writeMem_jl (s : State) (a : Nat) (bs : List Byte) : (s.writeMem a bs).jl = s.jl := rfl
@[simp] theorem writeMem_peers (s : State) (a : Nat) (bs : List Byte) : (s.writeMem a bs).peers = s.peers := rfl
@[simp] theorem writeMem_slots (s : State) (a : Nat) (bs : List Byte) : (s.writeMem a bs).slots = s.slots := rfl
@[simp] theorem writeMem_mail (s : State) (a : Nat) (bs : List Byte) : (s.writeMem a bs).mail = s.mail := rfl
@[simp] theorem writeMem_comp (s : State) (a : Nat) (bs : List Byte) : (s.writeMem a bs).comp = s.comp := rfl
@[simp] theorem writeMem_sealU (s : State) (a : Nat) (bs : List Byte) : (s.writeMem a bs).sealU = s.sealU := rfl
@[simp] theorem writeMem_cmp (s : State) (a : Nat) (bs : List Byte) : (s.writeMem a bs).cmp = s.cmp := rfl
@[simp] theorem writeMem_hbm (s : State) (a : Nat) (bs : List Byte) : (s.writeMem a bs).hbm = s.hbm := rfl
@[simp] theorem writeMem_scr (s : State) (a : Nat) (bs : List Byte) : (s.writeMem a bs).scr = s.scr.rewritten a bs.length := rfl
@[simp] theorem writeMem_mem (s : State) (a : Nat) (bs : List Byte) : (s.writeMem a bs).mem = s.stored a bs := rfl
@[simp] theorem writeMem_vault (s : State) (a : Nat) (bs : List Byte) : (s.writeMem a bs).vault = s.vault := rfl
@[simp] theorem writeMem_dma (s : State) (a : Nat) (bs : List Byte) : (s.writeMem a bs).dma = s.dma := rfl
@[simp] theorem writeMem_host (s : State) (a : Nat) (bs : List Byte) : (s.writeMem a bs).host = s.host := rfl
@[simp] theorem writeMem_chk (s : State) (a : Nat) (bs : List Byte) : (s.writeMem a bs).chk = s.chk := rfl
@[simp] theorem writeMem_loops (s : State) (a : Nat) (bs : List Byte) : (s.writeMem a bs).loops = s.loops := rfl
@[simp] theorem writeMem_segs (s : State) (a : Nat) (bs : List Byte) : (s.writeMem a bs).segs = s.segs := rfl
@[simp] theorem writeMem_split (s : State) (a : Nat) (bs : List Byte) : (s.writeMem a bs).split = s.split := rfl
@[simp] theorem writeMem_place (s : State) (a : Nat) (bs : List Byte) : (s.writeMem a bs).place = s.place := rfl
@[simp] theorem writeMem_samples (s : State) (a : Nat) (bs : List Byte) : (s.writeMem a bs).samples = s.samples := rfl
@[simp] theorem writeMem_sampleRun (s : State) (a : Nat) (bs : List Byte) : (s.writeMem a bs).sampleRun = s.sampleRun := rfl
@[simp] theorem writeMem_web (s : State) (a : Nat) (bs : List Byte) : (s.writeMem a bs).web = s.web := rfl
@[simp] theorem writeMem_axes (s : State) (a : Nat) (bs : List Byte) : (s.writeMem a bs).axes = s.axes := rfl
@[simp] theorem writeMem_headSafe (s : State) (a : Nat) (bs : List Byte) : (s.writeMem a bs).headSafe = s.headSafe := rfl
@[simp] theorem writeMem_life (s : State) (a : Nat) (bs : List Byte) : (s.writeMem a bs).life = s.life := rfl
@[simp] theorem writeMem_power (s : State) (a : Nat) (bs : List Byte) : (s.writeMem a bs).power = s.power := rfl
@[simp] theorem writeMem_tap (s : State) (a : Nat) (bs : List Byte) : (s.writeMem a bs).tap = s.tap := rfl
@[simp] theorem writeMem_free (s : State) (a : Nat) (bs : List Byte) : (s.writeMem a bs).free = s.free := rfl
@[simp] theorem writeMem_out (s : State) (a : Nat) (bs : List Byte) : (s.writeMem a bs).out = s.out := rfl

@[simp] theorem emit_pending (s : State) (x : Out) : (s.emit x).pending = s.pending := rfl
@[simp] theorem emit_regs (s : State) (x : Out) : (s.emit x).regs = s.regs := rfl
@[simp] theorem emit_act (s : State) (x : Out) : (s.emit x).act = s.act := rfl
@[simp] theorem emit_pend (s : State) (x : Out) : (s.emit x).pend = s.pend := rfl
@[simp] theorem emit_heldBack (s : State) (x : Out) : (s.emit x).heldBack = s.heldBack := rfl
@[simp] theorem emit_mem (s : State) (x : Out) : (s.emit x).mem = s.mem := rfl
@[simp] theorem emit_irq (s : State) (x : Out) : (s.emit x).irq = s.irq := rfl
@[simp] theorem emit_led (s : State) (x : Out) : (s.emit x).led = s.led := rfl
@[simp] theorem emit_replay (s : State) (x : Out) : (s.emit x).replay = s.replay := rfl
@[simp] theorem emit_lineTime (s : State) (x : Out) : (s.emit x).lineTime = s.lineTime := rfl
@[simp] theorem emit_time (s : State) (x : Out) : (s.emit x).time = s.time := rfl
@[simp] theorem emit_eth (s : State) (x : Out) : (s.emit x).eth = s.eth := rfl
@[simp] theorem emit_lanes (s : State) (x : Out) : (s.emit x).lanes = s.lanes := rfl
@[simp] theorem emit_jl (s : State) (x : Out) : (s.emit x).jl = s.jl := rfl
@[simp] theorem emit_peers (s : State) (x : Out) : (s.emit x).peers = s.peers := rfl
@[simp] theorem emit_slots (s : State) (x : Out) : (s.emit x).slots = s.slots := rfl
@[simp] theorem emit_mail (s : State) (x : Out) : (s.emit x).mail = s.mail := rfl
@[simp] theorem emit_comp (s : State) (x : Out) : (s.emit x).comp = s.comp := rfl
@[simp] theorem emit_sealU (s : State) (x : Out) : (s.emit x).sealU = s.sealU := rfl
@[simp] theorem emit_cmp (s : State) (x : Out) : (s.emit x).cmp = s.cmp := rfl
@[simp] theorem emit_hbm (s : State) (x : Out) : (s.emit x).hbm = s.hbm := rfl
@[simp] theorem emit_scr (s : State) (x : Out) : (s.emit x).scr = s.scr := rfl
@[simp] theorem emit_vault (s : State) (x : Out) : (s.emit x).vault = s.vault := rfl
@[simp] theorem emit_dma (s : State) (x : Out) : (s.emit x).dma = s.dma := rfl
@[simp] theorem emit_host (s : State) (x : Out) : (s.emit x).host = s.host := rfl
@[simp] theorem emit_chk (s : State) (x : Out) : (s.emit x).chk = s.chk := rfl
@[simp] theorem emit_loops (s : State) (x : Out) : (s.emit x).loops = s.loops := rfl
@[simp] theorem emit_segs (s : State) (x : Out) : (s.emit x).segs = s.segs := rfl
@[simp] theorem emit_split (s : State) (x : Out) : (s.emit x).split = s.split := rfl
@[simp] theorem emit_place (s : State) (x : Out) : (s.emit x).place = s.place := rfl
@[simp] theorem emit_samples (s : State) (x : Out) : (s.emit x).samples = s.samples := rfl
@[simp] theorem emit_sampleRun (s : State) (x : Out) : (s.emit x).sampleRun = s.sampleRun := rfl
@[simp] theorem emit_web (s : State) (x : Out) : (s.emit x).web = s.web := rfl
@[simp] theorem emit_axes (s : State) (x : Out) : (s.emit x).axes = s.axes := rfl
@[simp] theorem emit_headSafe (s : State) (x : Out) : (s.emit x).headSafe = s.headSafe := rfl
@[simp] theorem emit_life (s : State) (x : Out) : (s.emit x).life = s.life := rfl
@[simp] theorem emit_power (s : State) (x : Out) : (s.emit x).power = s.power := rfl
@[simp] theorem emit_tap (s : State) (x : Out) : (s.emit x).tap = s.tap := rfl
@[simp] theorem emit_free (s : State) (x : Out) : (s.emit x).free = s.free := rfl

/-! ### bump, setBits, raise -/

@[simp] theorem bump_pending (s : State) (a n : Nat) : (s.bump a n).pending = s.pending := rfl
@[simp] theorem bump_act (s : State) (a n : Nat) : (s.bump a n).act = s.act := rfl
@[simp] theorem bump_pend (s : State) (a n : Nat) : (s.bump a n).pend = s.pend := rfl
@[simp] theorem bump_heldBack (s : State) (a n : Nat) : (s.bump a n).heldBack = s.heldBack := rfl
@[simp] theorem bump_mem (s : State) (a n : Nat) : (s.bump a n).mem = s.mem := rfl
@[simp] theorem bump_irq (s : State) (a n : Nat) : (s.bump a n).irq = s.irq := rfl
@[simp] theorem bump_led (s : State) (a n : Nat) : (s.bump a n).led = s.led := rfl
@[simp] theorem bump_replay (s : State) (a n : Nat) : (s.bump a n).replay = s.replay := rfl
@[simp] theorem bump_lineTime (s : State) (a n : Nat) : (s.bump a n).lineTime = s.lineTime := rfl
@[simp] theorem bump_time (s : State) (a n : Nat) : (s.bump a n).time = s.time := rfl
@[simp] theorem bump_eth (s : State) (a n : Nat) : (s.bump a n).eth = s.eth := rfl
@[simp] theorem bump_lanes (s : State) (a n : Nat) : (s.bump a n).lanes = s.lanes := rfl
@[simp] theorem bump_jl (s : State) (a n : Nat) : (s.bump a n).jl = s.jl := rfl
@[simp] theorem bump_peers (s : State) (a n : Nat) : (s.bump a n).peers = s.peers := rfl
@[simp] theorem bump_slots (s : State) (a n : Nat) : (s.bump a n).slots = s.slots := rfl
@[simp] theorem bump_mail (s : State) (a n : Nat) : (s.bump a n).mail = s.mail := rfl
@[simp] theorem bump_comp (s : State) (a n : Nat) : (s.bump a n).comp = s.comp := rfl
@[simp] theorem bump_sealU (s : State) (a n : Nat) : (s.bump a n).sealU = s.sealU := rfl
@[simp] theorem bump_cmp (s : State) (a n : Nat) : (s.bump a n).cmp = s.cmp := rfl
@[simp] theorem bump_hbm (s : State) (a n : Nat) : (s.bump a n).hbm = s.hbm := rfl
@[simp] theorem bump_scr (s : State) (a n : Nat) : (s.bump a n).scr = s.scr := rfl
@[simp] theorem bump_vault (s : State) (a n : Nat) : (s.bump a n).vault = s.vault := rfl
@[simp] theorem bump_dma (s : State) (a n : Nat) : (s.bump a n).dma = s.dma := rfl
@[simp] theorem bump_host (s : State) (a n : Nat) : (s.bump a n).host = s.host := rfl
@[simp] theorem bump_chk (s : State) (a n : Nat) : (s.bump a n).chk = s.chk := rfl
@[simp] theorem bump_loops (s : State) (a n : Nat) : (s.bump a n).loops = s.loops := rfl
@[simp] theorem bump_segs (s : State) (a n : Nat) : (s.bump a n).segs = s.segs := rfl
@[simp] theorem bump_split (s : State) (a n : Nat) : (s.bump a n).split = s.split := rfl
@[simp] theorem bump_place (s : State) (a n : Nat) : (s.bump a n).place = s.place := rfl
@[simp] theorem bump_samples (s : State) (a n : Nat) : (s.bump a n).samples = s.samples := rfl
@[simp] theorem bump_sampleRun (s : State) (a n : Nat) : (s.bump a n).sampleRun = s.sampleRun := rfl
@[simp] theorem bump_web (s : State) (a n : Nat) : (s.bump a n).web = s.web := rfl
@[simp] theorem bump_axes (s : State) (a n : Nat) : (s.bump a n).axes = s.axes := rfl
@[simp] theorem bump_headSafe (s : State) (a n : Nat) : (s.bump a n).headSafe = s.headSafe := rfl
@[simp] theorem bump_life (s : State) (a n : Nat) : (s.bump a n).life = s.life := rfl
@[simp] theorem bump_power (s : State) (a n : Nat) : (s.bump a n).power = s.power := rfl
@[simp] theorem bump_tap (s : State) (a n : Nat) : (s.bump a n).tap = s.tap := rfl
@[simp] theorem bump_free (s : State) (a n : Nat) : (s.bump a n).free = s.free := rfl
@[simp] theorem bump_out (s : State) (a n : Nat) : (s.bump a n).out = s.out := rfl

@[simp] theorem setBits_pending (s : State) (a m : Nat) : (s.setBits a m).pending = s.pending := rfl
@[simp] theorem setBits_act (s : State) (a m : Nat) : (s.setBits a m).act = s.act := rfl
@[simp] theorem setBits_pend (s : State) (a m : Nat) : (s.setBits a m).pend = s.pend := rfl
@[simp] theorem setBits_heldBack (s : State) (a m : Nat) : (s.setBits a m).heldBack = s.heldBack := rfl
@[simp] theorem setBits_mem (s : State) (a m : Nat) : (s.setBits a m).mem = s.mem := rfl
@[simp] theorem setBits_irq (s : State) (a m : Nat) : (s.setBits a m).irq = s.irq := rfl
@[simp] theorem setBits_led (s : State) (a m : Nat) : (s.setBits a m).led = s.led := rfl
@[simp] theorem setBits_replay (s : State) (a m : Nat) : (s.setBits a m).replay = s.replay := rfl
@[simp] theorem setBits_lineTime (s : State) (a m : Nat) : (s.setBits a m).lineTime = s.lineTime := rfl
@[simp] theorem setBits_time (s : State) (a m : Nat) : (s.setBits a m).time = s.time := rfl
@[simp] theorem setBits_eth (s : State) (a m : Nat) : (s.setBits a m).eth = s.eth := rfl
@[simp] theorem setBits_lanes (s : State) (a m : Nat) : (s.setBits a m).lanes = s.lanes := rfl
@[simp] theorem setBits_jl (s : State) (a m : Nat) : (s.setBits a m).jl = s.jl := rfl
@[simp] theorem setBits_peers (s : State) (a m : Nat) : (s.setBits a m).peers = s.peers := rfl
@[simp] theorem setBits_slots (s : State) (a m : Nat) : (s.setBits a m).slots = s.slots := rfl
@[simp] theorem setBits_mail (s : State) (a m : Nat) : (s.setBits a m).mail = s.mail := rfl
@[simp] theorem setBits_comp (s : State) (a m : Nat) : (s.setBits a m).comp = s.comp := rfl
@[simp] theorem setBits_sealU (s : State) (a m : Nat) : (s.setBits a m).sealU = s.sealU := rfl
@[simp] theorem setBits_cmp (s : State) (a m : Nat) : (s.setBits a m).cmp = s.cmp := rfl
@[simp] theorem setBits_hbm (s : State) (a m : Nat) : (s.setBits a m).hbm = s.hbm := rfl
@[simp] theorem setBits_scr (s : State) (a m : Nat) : (s.setBits a m).scr = s.scr := rfl
@[simp] theorem setBits_vault (s : State) (a m : Nat) : (s.setBits a m).vault = s.vault := rfl
@[simp] theorem setBits_dma (s : State) (a m : Nat) : (s.setBits a m).dma = s.dma := rfl
@[simp] theorem setBits_host (s : State) (a m : Nat) : (s.setBits a m).host = s.host := rfl
@[simp] theorem setBits_chk (s : State) (a m : Nat) : (s.setBits a m).chk = s.chk := rfl
@[simp] theorem setBits_loops (s : State) (a m : Nat) : (s.setBits a m).loops = s.loops := rfl
@[simp] theorem setBits_segs (s : State) (a m : Nat) : (s.setBits a m).segs = s.segs := rfl
@[simp] theorem setBits_split (s : State) (a m : Nat) : (s.setBits a m).split = s.split := rfl
@[simp] theorem setBits_place (s : State) (a m : Nat) : (s.setBits a m).place = s.place := rfl
@[simp] theorem setBits_samples (s : State) (a m : Nat) : (s.setBits a m).samples = s.samples := rfl
@[simp] theorem setBits_sampleRun (s : State) (a m : Nat) : (s.setBits a m).sampleRun = s.sampleRun := rfl
@[simp] theorem setBits_web (s : State) (a m : Nat) : (s.setBits a m).web = s.web := rfl
@[simp] theorem setBits_axes (s : State) (a m : Nat) : (s.setBits a m).axes = s.axes := rfl
@[simp] theorem setBits_headSafe (s : State) (a m : Nat) : (s.setBits a m).headSafe = s.headSafe := rfl
@[simp] theorem setBits_life (s : State) (a m : Nat) : (s.setBits a m).life = s.life := rfl
@[simp] theorem setBits_power (s : State) (a m : Nat) : (s.setBits a m).power = s.power := rfl
@[simp] theorem setBits_tap (s : State) (a m : Nat) : (s.setBits a m).tap = s.tap := rfl
@[simp] theorem setBits_free (s : State) (a m : Nat) : (s.setBits a m).free = s.free := rfl
@[simp] theorem setBits_out (s : State) (a m : Nat) : (s.setBits a m).out = s.out := rfl

@[simp] theorem raise_pending (s : State) (p c : Nat) : (s.raise p c).pending = s.pending := rfl
@[simp] theorem raise_act (s : State) (p c : Nat) : (s.raise p c).act = s.act := rfl
@[simp] theorem raise_pend (s : State) (p c : Nat) : (s.raise p c).pend = s.pend := rfl
@[simp] theorem raise_heldBack (s : State) (p c : Nat) : (s.raise p c).heldBack = s.heldBack := rfl
@[simp] theorem raise_mem (s : State) (p c : Nat) : (s.raise p c).mem = s.mem := rfl
@[simp] theorem raise_irq (s : State) (p c : Nat) : (s.raise p c).irq = s.irq := rfl
@[simp] theorem raise_led (s : State) (p c : Nat) : (s.raise p c).led = s.led := rfl
@[simp] theorem raise_replay (s : State) (p c : Nat) : (s.raise p c).replay = s.replay := rfl
@[simp] theorem raise_lineTime (s : State) (p c : Nat) : (s.raise p c).lineTime = s.lineTime := rfl
@[simp] theorem raise_time (s : State) (p c : Nat) : (s.raise p c).time = s.time := rfl
@[simp] theorem raise_eth (s : State) (p c : Nat) : (s.raise p c).eth = s.eth := rfl
@[simp] theorem raise_lanes (s : State) (p c : Nat) : (s.raise p c).lanes = s.lanes := rfl
@[simp] theorem raise_jl (s : State) (p c : Nat) : (s.raise p c).jl = s.jl := rfl
@[simp] theorem raise_peers (s : State) (p c : Nat) : (s.raise p c).peers = s.peers := rfl
@[simp] theorem raise_slots (s : State) (p c : Nat) : (s.raise p c).slots = s.slots := rfl
@[simp] theorem raise_mail (s : State) (p c : Nat) : (s.raise p c).mail = s.mail := rfl
@[simp] theorem raise_comp (s : State) (p c : Nat) : (s.raise p c).comp = s.comp := rfl
@[simp] theorem raise_sealU (s : State) (p c : Nat) : (s.raise p c).sealU = s.sealU := rfl
@[simp] theorem raise_cmp (s : State) (p c : Nat) : (s.raise p c).cmp = s.cmp := rfl
@[simp] theorem raise_hbm (s : State) (p c : Nat) : (s.raise p c).hbm = s.hbm := rfl
@[simp] theorem raise_scr (s : State) (p c : Nat) : (s.raise p c).scr = s.scr := rfl
@[simp] theorem raise_vault (s : State) (p c : Nat) : (s.raise p c).vault = s.vault := rfl
@[simp] theorem raise_dma (s : State) (p c : Nat) : (s.raise p c).dma = s.dma := rfl
@[simp] theorem raise_host (s : State) (p c : Nat) : (s.raise p c).host = s.host := rfl
@[simp] theorem raise_chk (s : State) (p c : Nat) : (s.raise p c).chk = s.chk := rfl
@[simp] theorem raise_loops (s : State) (p c : Nat) : (s.raise p c).loops = s.loops := rfl
@[simp] theorem raise_segs (s : State) (p c : Nat) : (s.raise p c).segs = s.segs := rfl
@[simp] theorem raise_split (s : State) (p c : Nat) : (s.raise p c).split = s.split := rfl
@[simp] theorem raise_place (s : State) (p c : Nat) : (s.raise p c).place = s.place := rfl
@[simp] theorem raise_samples (s : State) (p c : Nat) : (s.raise p c).samples = s.samples := rfl
@[simp] theorem raise_sampleRun (s : State) (p c : Nat) : (s.raise p c).sampleRun = s.sampleRun := rfl
@[simp] theorem raise_web (s : State) (p c : Nat) : (s.raise p c).web = s.web := rfl
@[simp] theorem raise_axes (s : State) (p c : Nat) : (s.raise p c).axes = s.axes := rfl
@[simp] theorem raise_headSafe (s : State) (p c : Nat) : (s.raise p c).headSafe = s.headSafe := rfl
@[simp] theorem raise_life (s : State) (p c : Nat) : (s.raise p c).life = s.life := rfl
@[simp] theorem raise_power (s : State) (p c : Nat) : (s.raise p c).power = s.power := rfl
@[simp] theorem raise_tap (s : State) (p c : Nat) : (s.raise p c).tap = s.tap := rfl
@[simp] theorem raise_free (s : State) (p c : Nat) : (s.raise p c).free = s.free := rfl
@[simp] theorem raise_out (s : State) (p c : Nat) : (s.raise p c).out = s.out := rfl

/-! ### post, event, error: a record waits, or is dropped and counted -/

@[simp] theorem latchErr_pending (s : State) (p code seq : Nat) : (s.latchErr p code seq).pending = s.pending := by
  unfold State.latchErr; dsimp only; split <;> rfl
@[simp] theorem dropRec_pending (s : State) (src : Nat) (r : Rec) : (s.dropRec src r).pending = s.pending := by
  unfold State.dropRec; dsimp only; split <;> simp
@[simp] theorem post_pending (s : State) (r : Rec) : (s.post r).pending = s.pending := by
  unfold State.post; split <;> simp
@[simp] theorem event_pending (s : State) (p code : Nat) (l : List Fld) : (s.event p code l).pending = s.pending := post_pending s _
@[simp] theorem error_pending (s : State) (p code : Nat) (l : List Fld) : (s.error p code l).pending = s.pending := post_pending s _
@[simp] theorem latchErr_act (s : State) (p code seq : Nat) : (s.latchErr p code seq).act = s.act := by
  unfold State.latchErr; dsimp only; split <;> rfl
@[simp] theorem dropRec_act (s : State) (src : Nat) (r : Rec) : (s.dropRec src r).act = s.act := by
  unfold State.dropRec; dsimp only; split <;> simp
@[simp] theorem post_act (s : State) (r : Rec) : (s.post r).act = s.act := by
  unfold State.post; split <;> simp
@[simp] theorem event_act (s : State) (p code : Nat) (l : List Fld) : (s.event p code l).act = s.act := post_act s _
@[simp] theorem error_act (s : State) (p code : Nat) (l : List Fld) : (s.error p code l).act = s.act := post_act s _
@[simp] theorem latchErr_pend (s : State) (p code seq : Nat) : (s.latchErr p code seq).pend = s.pend := by
  unfold State.latchErr; dsimp only; split <;> rfl
@[simp] theorem dropRec_pend (s : State) (src : Nat) (r : Rec) : (s.dropRec src r).pend = s.pend := by
  unfold State.dropRec; dsimp only; split <;> simp
@[simp] theorem post_pend (s : State) (r : Rec) : (s.post r).pend = s.pend := by
  unfold State.post; split <;> simp
@[simp] theorem event_pend (s : State) (p code : Nat) (l : List Fld) : (s.event p code l).pend = s.pend := post_pend s _
@[simp] theorem error_pend (s : State) (p code : Nat) (l : List Fld) : (s.error p code l).pend = s.pend := post_pend s _
@[simp] theorem latchErr_heldBack (s : State) (p code seq : Nat) : (s.latchErr p code seq).heldBack = s.heldBack := by
  unfold State.latchErr; dsimp only; split <;> rfl
@[simp] theorem dropRec_heldBack (s : State) (src : Nat) (r : Rec) : (s.dropRec src r).heldBack = s.heldBack := by
  unfold State.dropRec; dsimp only; split <;> simp
@[simp] theorem post_heldBack (s : State) (r : Rec) : (s.post r).heldBack = s.heldBack := by
  unfold State.post; split <;> simp
@[simp] theorem event_heldBack (s : State) (p code : Nat) (l : List Fld) : (s.event p code l).heldBack = s.heldBack := post_heldBack s _
@[simp] theorem error_heldBack (s : State) (p code : Nat) (l : List Fld) : (s.error p code l).heldBack = s.heldBack := post_heldBack s _
@[simp] theorem latchErr_mem (s : State) (p code seq : Nat) : (s.latchErr p code seq).mem = s.mem := by
  unfold State.latchErr; dsimp only; split <;> rfl
@[simp] theorem dropRec_mem (s : State) (src : Nat) (r : Rec) : (s.dropRec src r).mem = s.mem := by
  unfold State.dropRec; dsimp only; split <;> simp
@[simp] theorem post_mem (s : State) (r : Rec) : (s.post r).mem = s.mem := by
  unfold State.post; split <;> simp
@[simp] theorem event_mem (s : State) (p code : Nat) (l : List Fld) : (s.event p code l).mem = s.mem := post_mem s _
@[simp] theorem error_mem (s : State) (p code : Nat) (l : List Fld) : (s.error p code l).mem = s.mem := post_mem s _
@[simp] theorem latchErr_irq (s : State) (p code seq : Nat) : (s.latchErr p code seq).irq = s.irq := by
  unfold State.latchErr; dsimp only; split <;> rfl
@[simp] theorem dropRec_irq (s : State) (src : Nat) (r : Rec) : (s.dropRec src r).irq = s.irq := by
  unfold State.dropRec; dsimp only; split <;> simp
@[simp] theorem post_irq (s : State) (r : Rec) : (s.post r).irq = s.irq := by
  unfold State.post; split <;> simp
@[simp] theorem event_irq (s : State) (p code : Nat) (l : List Fld) : (s.event p code l).irq = s.irq := post_irq s _
@[simp] theorem error_irq (s : State) (p code : Nat) (l : List Fld) : (s.error p code l).irq = s.irq := post_irq s _
@[simp] theorem latchErr_replay (s : State) (p code seq : Nat) : (s.latchErr p code seq).replay = s.replay := by
  unfold State.latchErr; dsimp only; split <;> rfl
@[simp] theorem dropRec_replay (s : State) (src : Nat) (r : Rec) : (s.dropRec src r).replay = s.replay := by
  unfold State.dropRec; dsimp only; split <;> simp
@[simp] theorem post_replay (s : State) (r : Rec) : (s.post r).replay = s.replay := by
  unfold State.post; split <;> simp
@[simp] theorem event_replay (s : State) (p code : Nat) (l : List Fld) : (s.event p code l).replay = s.replay := post_replay s _
@[simp] theorem error_replay (s : State) (p code : Nat) (l : List Fld) : (s.error p code l).replay = s.replay := post_replay s _
@[simp] theorem latchErr_lineTime (s : State) (p code seq : Nat) : (s.latchErr p code seq).lineTime = s.lineTime := by
  unfold State.latchErr; dsimp only; split <;> rfl
@[simp] theorem dropRec_lineTime (s : State) (src : Nat) (r : Rec) : (s.dropRec src r).lineTime = s.lineTime := by
  unfold State.dropRec; dsimp only; split <;> simp
@[simp] theorem post_lineTime (s : State) (r : Rec) : (s.post r).lineTime = s.lineTime := by
  unfold State.post; split <;> simp
@[simp] theorem event_lineTime (s : State) (p code : Nat) (l : List Fld) : (s.event p code l).lineTime = s.lineTime := post_lineTime s _
@[simp] theorem error_lineTime (s : State) (p code : Nat) (l : List Fld) : (s.error p code l).lineTime = s.lineTime := post_lineTime s _
@[simp] theorem latchErr_time (s : State) (p code seq : Nat) : (s.latchErr p code seq).time = s.time := by
  unfold State.latchErr; dsimp only; split <;> rfl
@[simp] theorem dropRec_time (s : State) (src : Nat) (r : Rec) : (s.dropRec src r).time = s.time := by
  unfold State.dropRec; dsimp only; split <;> simp
@[simp] theorem post_time (s : State) (r : Rec) : (s.post r).time = s.time := by
  unfold State.post; split <;> simp
@[simp] theorem event_time (s : State) (p code : Nat) (l : List Fld) : (s.event p code l).time = s.time := post_time s _
@[simp] theorem error_time (s : State) (p code : Nat) (l : List Fld) : (s.error p code l).time = s.time := post_time s _
@[simp] theorem latchErr_eth (s : State) (p code seq : Nat) : (s.latchErr p code seq).eth = s.eth := by
  unfold State.latchErr; dsimp only; split <;> rfl
@[simp] theorem dropRec_eth (s : State) (src : Nat) (r : Rec) : (s.dropRec src r).eth = s.eth := by
  unfold State.dropRec; dsimp only; split <;> simp
@[simp] theorem post_eth (s : State) (r : Rec) : (s.post r).eth = s.eth := by
  unfold State.post; split <;> simp
@[simp] theorem event_eth (s : State) (p code : Nat) (l : List Fld) : (s.event p code l).eth = s.eth := post_eth s _
@[simp] theorem error_eth (s : State) (p code : Nat) (l : List Fld) : (s.error p code l).eth = s.eth := post_eth s _
@[simp] theorem latchErr_lanes (s : State) (p code seq : Nat) : (s.latchErr p code seq).lanes = s.lanes := by
  unfold State.latchErr; dsimp only; split <;> rfl
@[simp] theorem dropRec_lanes (s : State) (src : Nat) (r : Rec) : (s.dropRec src r).lanes = s.lanes := by
  unfold State.dropRec; dsimp only; split <;> simp
@[simp] theorem post_lanes (s : State) (r : Rec) : (s.post r).lanes = s.lanes := by
  unfold State.post; split <;> simp
@[simp] theorem event_lanes (s : State) (p code : Nat) (l : List Fld) : (s.event p code l).lanes = s.lanes := post_lanes s _
@[simp] theorem error_lanes (s : State) (p code : Nat) (l : List Fld) : (s.error p code l).lanes = s.lanes := post_lanes s _
@[simp] theorem latchErr_jl (s : State) (p code seq : Nat) : (s.latchErr p code seq).jl = s.jl := by
  unfold State.latchErr; dsimp only; split <;> rfl
@[simp] theorem dropRec_jl (s : State) (src : Nat) (r : Rec) : (s.dropRec src r).jl = s.jl := by
  unfold State.dropRec; dsimp only; split <;> simp
@[simp] theorem post_jl (s : State) (r : Rec) : (s.post r).jl = s.jl := by
  unfold State.post; split <;> simp
@[simp] theorem event_jl (s : State) (p code : Nat) (l : List Fld) : (s.event p code l).jl = s.jl := post_jl s _
@[simp] theorem error_jl (s : State) (p code : Nat) (l : List Fld) : (s.error p code l).jl = s.jl := post_jl s _
@[simp] theorem latchErr_peers (s : State) (p code seq : Nat) : (s.latchErr p code seq).peers = s.peers := by
  unfold State.latchErr; dsimp only; split <;> rfl
@[simp] theorem dropRec_peers (s : State) (src : Nat) (r : Rec) : (s.dropRec src r).peers = s.peers := by
  unfold State.dropRec; dsimp only; split <;> simp
@[simp] theorem post_peers (s : State) (r : Rec) : (s.post r).peers = s.peers := by
  unfold State.post; split <;> simp
@[simp] theorem event_peers (s : State) (p code : Nat) (l : List Fld) : (s.event p code l).peers = s.peers := post_peers s _
@[simp] theorem error_peers (s : State) (p code : Nat) (l : List Fld) : (s.error p code l).peers = s.peers := post_peers s _
@[simp] theorem latchErr_slots (s : State) (p code seq : Nat) : (s.latchErr p code seq).slots = s.slots := by
  unfold State.latchErr; dsimp only; split <;> rfl
@[simp] theorem dropRec_slots (s : State) (src : Nat) (r : Rec) : (s.dropRec src r).slots = s.slots := by
  unfold State.dropRec; dsimp only; split <;> simp
@[simp] theorem post_slots (s : State) (r : Rec) : (s.post r).slots = s.slots := by
  unfold State.post; split <;> simp
@[simp] theorem event_slots (s : State) (p code : Nat) (l : List Fld) : (s.event p code l).slots = s.slots := post_slots s _
@[simp] theorem error_slots (s : State) (p code : Nat) (l : List Fld) : (s.error p code l).slots = s.slots := post_slots s _
@[simp] theorem latchErr_mail (s : State) (p code seq : Nat) : (s.latchErr p code seq).mail = s.mail := by
  unfold State.latchErr; dsimp only; split <;> rfl
@[simp] theorem dropRec_mail (s : State) (src : Nat) (r : Rec) : (s.dropRec src r).mail = s.mail := by
  unfold State.dropRec; dsimp only; split <;> simp
@[simp] theorem post_mail (s : State) (r : Rec) : (s.post r).mail = s.mail := by
  unfold State.post; split <;> simp
@[simp] theorem event_mail (s : State) (p code : Nat) (l : List Fld) : (s.event p code l).mail = s.mail := post_mail s _
@[simp] theorem error_mail (s : State) (p code : Nat) (l : List Fld) : (s.error p code l).mail = s.mail := post_mail s _
@[simp] theorem latchErr_comp (s : State) (p code seq : Nat) : (s.latchErr p code seq).comp = s.comp := by
  unfold State.latchErr; dsimp only; split <;> rfl
@[simp] theorem dropRec_comp (s : State) (src : Nat) (r : Rec) : (s.dropRec src r).comp = s.comp := by
  unfold State.dropRec; dsimp only; split <;> simp
@[simp] theorem post_comp (s : State) (r : Rec) : (s.post r).comp = s.comp := by
  unfold State.post; split <;> simp
@[simp] theorem event_comp (s : State) (p code : Nat) (l : List Fld) : (s.event p code l).comp = s.comp := post_comp s _
@[simp] theorem error_comp (s : State) (p code : Nat) (l : List Fld) : (s.error p code l).comp = s.comp := post_comp s _
@[simp] theorem latchErr_sealU (s : State) (p code seq : Nat) : (s.latchErr p code seq).sealU = s.sealU := by
  unfold State.latchErr; dsimp only; split <;> rfl
@[simp] theorem dropRec_sealU (s : State) (src : Nat) (r : Rec) : (s.dropRec src r).sealU = s.sealU := by
  unfold State.dropRec; dsimp only; split <;> simp
@[simp] theorem post_sealU (s : State) (r : Rec) : (s.post r).sealU = s.sealU := by
  unfold State.post; split <;> simp
@[simp] theorem event_sealU (s : State) (p code : Nat) (l : List Fld) : (s.event p code l).sealU = s.sealU := post_sealU s _
@[simp] theorem error_sealU (s : State) (p code : Nat) (l : List Fld) : (s.error p code l).sealU = s.sealU := post_sealU s _
@[simp] theorem latchErr_cmp (s : State) (p code seq : Nat) : (s.latchErr p code seq).cmp = s.cmp := by
  unfold State.latchErr; dsimp only; split <;> rfl
@[simp] theorem dropRec_cmp (s : State) (src : Nat) (r : Rec) : (s.dropRec src r).cmp = s.cmp := by
  unfold State.dropRec; dsimp only; split <;> simp
@[simp] theorem post_cmp (s : State) (r : Rec) : (s.post r).cmp = s.cmp := by
  unfold State.post; split <;> simp
@[simp] theorem event_cmp (s : State) (p code : Nat) (l : List Fld) : (s.event p code l).cmp = s.cmp := post_cmp s _
@[simp] theorem error_cmp (s : State) (p code : Nat) (l : List Fld) : (s.error p code l).cmp = s.cmp := post_cmp s _
@[simp] theorem latchErr_hbm (s : State) (p code seq : Nat) : (s.latchErr p code seq).hbm = s.hbm := by
  unfold State.latchErr; dsimp only; split <;> rfl
@[simp] theorem dropRec_hbm (s : State) (src : Nat) (r : Rec) : (s.dropRec src r).hbm = s.hbm := by
  unfold State.dropRec; dsimp only; split <;> simp
@[simp] theorem post_hbm (s : State) (r : Rec) : (s.post r).hbm = s.hbm := by
  unfold State.post; split <;> simp
@[simp] theorem event_hbm (s : State) (p code : Nat) (l : List Fld) : (s.event p code l).hbm = s.hbm := post_hbm s _
@[simp] theorem error_hbm (s : State) (p code : Nat) (l : List Fld) : (s.error p code l).hbm = s.hbm := post_hbm s _
@[simp] theorem latchErr_scr (s : State) (p code seq : Nat) : (s.latchErr p code seq).scr = s.scr := by
  unfold State.latchErr; dsimp only; split <;> rfl
@[simp] theorem dropRec_scr (s : State) (src : Nat) (r : Rec) : (s.dropRec src r).scr = s.scr := by
  unfold State.dropRec; dsimp only; split <;> simp
@[simp] theorem post_scr (s : State) (r : Rec) : (s.post r).scr = s.scr := by
  unfold State.post; split <;> simp
@[simp] theorem event_scr (s : State) (p code : Nat) (l : List Fld) : (s.event p code l).scr = s.scr := post_scr s _
@[simp] theorem error_scr (s : State) (p code : Nat) (l : List Fld) : (s.error p code l).scr = s.scr := post_scr s _
@[simp] theorem latchErr_vault (s : State) (p code seq : Nat) : (s.latchErr p code seq).vault = s.vault := by
  unfold State.latchErr; dsimp only; split <;> rfl
@[simp] theorem dropRec_vault (s : State) (src : Nat) (r : Rec) : (s.dropRec src r).vault = s.vault := by
  unfold State.dropRec; dsimp only; split <;> simp
@[simp] theorem post_vault (s : State) (r : Rec) : (s.post r).vault = s.vault := by
  unfold State.post; split <;> simp
@[simp] theorem event_vault (s : State) (p code : Nat) (l : List Fld) : (s.event p code l).vault = s.vault := post_vault s _
@[simp] theorem error_vault (s : State) (p code : Nat) (l : List Fld) : (s.error p code l).vault = s.vault := post_vault s _
@[simp] theorem latchErr_dma (s : State) (p code seq : Nat) : (s.latchErr p code seq).dma = s.dma := by
  unfold State.latchErr; dsimp only; split <;> rfl
@[simp] theorem dropRec_dma (s : State) (src : Nat) (r : Rec) : (s.dropRec src r).dma = s.dma := by
  unfold State.dropRec; dsimp only; split <;> simp
@[simp] theorem post_dma (s : State) (r : Rec) : (s.post r).dma = s.dma := by
  unfold State.post; split <;> simp
@[simp] theorem event_dma (s : State) (p code : Nat) (l : List Fld) : (s.event p code l).dma = s.dma := post_dma s _
@[simp] theorem error_dma (s : State) (p code : Nat) (l : List Fld) : (s.error p code l).dma = s.dma := post_dma s _
@[simp] theorem latchErr_host (s : State) (p code seq : Nat) : (s.latchErr p code seq).host = s.host := by
  unfold State.latchErr; dsimp only; split <;> rfl
@[simp] theorem dropRec_host (s : State) (src : Nat) (r : Rec) : (s.dropRec src r).host = s.host := by
  unfold State.dropRec; dsimp only; split <;> simp
@[simp] theorem post_host (s : State) (r : Rec) : (s.post r).host = s.host := by
  unfold State.post; split <;> simp
@[simp] theorem event_host (s : State) (p code : Nat) (l : List Fld) : (s.event p code l).host = s.host := post_host s _
@[simp] theorem error_host (s : State) (p code : Nat) (l : List Fld) : (s.error p code l).host = s.host := post_host s _
@[simp] theorem latchErr_chk (s : State) (p code seq : Nat) : (s.latchErr p code seq).chk = s.chk := by
  unfold State.latchErr; dsimp only; split <;> rfl
@[simp] theorem dropRec_chk (s : State) (src : Nat) (r : Rec) : (s.dropRec src r).chk = s.chk := by
  unfold State.dropRec; dsimp only; split <;> simp
@[simp] theorem post_chk (s : State) (r : Rec) : (s.post r).chk = s.chk := by
  unfold State.post; split <;> simp
@[simp] theorem event_chk (s : State) (p code : Nat) (l : List Fld) : (s.event p code l).chk = s.chk := post_chk s _
@[simp] theorem error_chk (s : State) (p code : Nat) (l : List Fld) : (s.error p code l).chk = s.chk := post_chk s _
@[simp] theorem latchErr_loops (s : State) (p code seq : Nat) : (s.latchErr p code seq).loops = s.loops := by
  unfold State.latchErr; dsimp only; split <;> rfl
@[simp] theorem dropRec_loops (s : State) (src : Nat) (r : Rec) : (s.dropRec src r).loops = s.loops := by
  unfold State.dropRec; dsimp only; split <;> simp
@[simp] theorem post_loops (s : State) (r : Rec) : (s.post r).loops = s.loops := by
  unfold State.post; split <;> simp
@[simp] theorem event_loops (s : State) (p code : Nat) (l : List Fld) : (s.event p code l).loops = s.loops := post_loops s _
@[simp] theorem error_loops (s : State) (p code : Nat) (l : List Fld) : (s.error p code l).loops = s.loops := post_loops s _
@[simp] theorem latchErr_segs (s : State) (p code seq : Nat) : (s.latchErr p code seq).segs = s.segs := by
  unfold State.latchErr; dsimp only; split <;> rfl
@[simp] theorem dropRec_segs (s : State) (src : Nat) (r : Rec) : (s.dropRec src r).segs = s.segs := by
  unfold State.dropRec; dsimp only; split <;> simp
@[simp] theorem post_segs (s : State) (r : Rec) : (s.post r).segs = s.segs := by
  unfold State.post; split <;> simp
@[simp] theorem event_segs (s : State) (p code : Nat) (l : List Fld) : (s.event p code l).segs = s.segs := post_segs s _
@[simp] theorem error_segs (s : State) (p code : Nat) (l : List Fld) : (s.error p code l).segs = s.segs := post_segs s _
@[simp] theorem latchErr_split (s : State) (p code seq : Nat) : (s.latchErr p code seq).split = s.split := by
  unfold State.latchErr; dsimp only; split <;> rfl
@[simp] theorem dropRec_split (s : State) (src : Nat) (r : Rec) : (s.dropRec src r).split = s.split := by
  unfold State.dropRec; dsimp only; split <;> simp
@[simp] theorem post_split (s : State) (r : Rec) : (s.post r).split = s.split := by
  unfold State.post; split <;> simp
@[simp] theorem event_split (s : State) (p code : Nat) (l : List Fld) : (s.event p code l).split = s.split := post_split s _
@[simp] theorem error_split (s : State) (p code : Nat) (l : List Fld) : (s.error p code l).split = s.split := post_split s _
@[simp] theorem latchErr_place (s : State) (p code seq : Nat) : (s.latchErr p code seq).place = s.place := by
  unfold State.latchErr; dsimp only; split <;> rfl
@[simp] theorem dropRec_place (s : State) (src : Nat) (r : Rec) : (s.dropRec src r).place = s.place := by
  unfold State.dropRec; dsimp only; split <;> simp
@[simp] theorem post_place (s : State) (r : Rec) : (s.post r).place = s.place := by
  unfold State.post; split <;> simp
@[simp] theorem event_place (s : State) (p code : Nat) (l : List Fld) : (s.event p code l).place = s.place := post_place s _
@[simp] theorem error_place (s : State) (p code : Nat) (l : List Fld) : (s.error p code l).place = s.place := post_place s _
@[simp] theorem latchErr_samples (s : State) (p code seq : Nat) : (s.latchErr p code seq).samples = s.samples := by
  unfold State.latchErr; dsimp only; split <;> rfl
@[simp] theorem dropRec_samples (s : State) (src : Nat) (r : Rec) : (s.dropRec src r).samples = s.samples := by
  unfold State.dropRec; dsimp only; split <;> simp
@[simp] theorem post_samples (s : State) (r : Rec) : (s.post r).samples = s.samples := by
  unfold State.post; split <;> simp
@[simp] theorem event_samples (s : State) (p code : Nat) (l : List Fld) : (s.event p code l).samples = s.samples := post_samples s _
@[simp] theorem error_samples (s : State) (p code : Nat) (l : List Fld) : (s.error p code l).samples = s.samples := post_samples s _
@[simp] theorem latchErr_sampleRun (s : State) (p code seq : Nat) : (s.latchErr p code seq).sampleRun = s.sampleRun := by
  unfold State.latchErr; dsimp only; split <;> rfl
@[simp] theorem dropRec_sampleRun (s : State) (src : Nat) (r : Rec) : (s.dropRec src r).sampleRun = s.sampleRun := by
  unfold State.dropRec; dsimp only; split <;> simp
@[simp] theorem post_sampleRun (s : State) (r : Rec) : (s.post r).sampleRun = s.sampleRun := by
  unfold State.post; split <;> simp
@[simp] theorem event_sampleRun (s : State) (p code : Nat) (l : List Fld) : (s.event p code l).sampleRun = s.sampleRun := post_sampleRun s _
@[simp] theorem error_sampleRun (s : State) (p code : Nat) (l : List Fld) : (s.error p code l).sampleRun = s.sampleRun := post_sampleRun s _
@[simp] theorem latchErr_web (s : State) (p code seq : Nat) : (s.latchErr p code seq).web = s.web := by
  unfold State.latchErr; dsimp only; split <;> rfl
@[simp] theorem dropRec_web (s : State) (src : Nat) (r : Rec) : (s.dropRec src r).web = s.web := by
  unfold State.dropRec; dsimp only; split <;> simp
@[simp] theorem post_web (s : State) (r : Rec) : (s.post r).web = s.web := by
  unfold State.post; split <;> simp
@[simp] theorem event_web (s : State) (p code : Nat) (l : List Fld) : (s.event p code l).web = s.web := post_web s _
@[simp] theorem error_web (s : State) (p code : Nat) (l : List Fld) : (s.error p code l).web = s.web := post_web s _
@[simp] theorem latchErr_axes (s : State) (p code seq : Nat) : (s.latchErr p code seq).axes = s.axes := by
  unfold State.latchErr; dsimp only; split <;> rfl
@[simp] theorem dropRec_axes (s : State) (src : Nat) (r : Rec) : (s.dropRec src r).axes = s.axes := by
  unfold State.dropRec; dsimp only; split <;> simp
@[simp] theorem post_axes (s : State) (r : Rec) : (s.post r).axes = s.axes := by
  unfold State.post; split <;> simp
@[simp] theorem event_axes (s : State) (p code : Nat) (l : List Fld) : (s.event p code l).axes = s.axes := post_axes s _
@[simp] theorem error_axes (s : State) (p code : Nat) (l : List Fld) : (s.error p code l).axes = s.axes := post_axes s _
@[simp] theorem latchErr_headSafe (s : State) (p code seq : Nat) : (s.latchErr p code seq).headSafe = s.headSafe := by
  unfold State.latchErr; dsimp only; split <;> rfl
@[simp] theorem dropRec_headSafe (s : State) (src : Nat) (r : Rec) : (s.dropRec src r).headSafe = s.headSafe := by
  unfold State.dropRec; dsimp only; split <;> simp
@[simp] theorem post_headSafe (s : State) (r : Rec) : (s.post r).headSafe = s.headSafe := by
  unfold State.post; split <;> simp
@[simp] theorem event_headSafe (s : State) (p code : Nat) (l : List Fld) : (s.event p code l).headSafe = s.headSafe := post_headSafe s _
@[simp] theorem error_headSafe (s : State) (p code : Nat) (l : List Fld) : (s.error p code l).headSafe = s.headSafe := post_headSafe s _
@[simp] theorem latchErr_life (s : State) (p code seq : Nat) : (s.latchErr p code seq).life = s.life := by
  unfold State.latchErr; dsimp only; split <;> rfl
@[simp] theorem dropRec_life (s : State) (src : Nat) (r : Rec) : (s.dropRec src r).life = s.life := by
  unfold State.dropRec; dsimp only; split <;> simp
@[simp] theorem post_life (s : State) (r : Rec) : (s.post r).life = s.life := by
  unfold State.post; split <;> simp
@[simp] theorem event_life (s : State) (p code : Nat) (l : List Fld) : (s.event p code l).life = s.life := post_life s _
@[simp] theorem error_life (s : State) (p code : Nat) (l : List Fld) : (s.error p code l).life = s.life := post_life s _
@[simp] theorem latchErr_power (s : State) (p code seq : Nat) : (s.latchErr p code seq).power = s.power := by
  unfold State.latchErr; dsimp only; split <;> rfl
@[simp] theorem dropRec_power (s : State) (src : Nat) (r : Rec) : (s.dropRec src r).power = s.power := by
  unfold State.dropRec; dsimp only; split <;> simp
@[simp] theorem post_power (s : State) (r : Rec) : (s.post r).power = s.power := by
  unfold State.post; split <;> simp
@[simp] theorem event_power (s : State) (p code : Nat) (l : List Fld) : (s.event p code l).power = s.power := post_power s _
@[simp] theorem error_power (s : State) (p code : Nat) (l : List Fld) : (s.error p code l).power = s.power := post_power s _
@[simp] theorem latchErr_tap (s : State) (p code seq : Nat) : (s.latchErr p code seq).tap = s.tap := by
  unfold State.latchErr; dsimp only; split <;> rfl
@[simp] theorem dropRec_tap (s : State) (src : Nat) (r : Rec) : (s.dropRec src r).tap = s.tap := by
  unfold State.dropRec; dsimp only; split <;> simp
@[simp] theorem post_tap (s : State) (r : Rec) : (s.post r).tap = s.tap := by
  unfold State.post; split <;> simp
@[simp] theorem event_tap (s : State) (p code : Nat) (l : List Fld) : (s.event p code l).tap = s.tap := post_tap s _
@[simp] theorem error_tap (s : State) (p code : Nat) (l : List Fld) : (s.error p code l).tap = s.tap := post_tap s _
@[simp] theorem latchErr_free (s : State) (p code seq : Nat) : (s.latchErr p code seq).free = s.free := by
  unfold State.latchErr; dsimp only; split <;> rfl
@[simp] theorem dropRec_free (s : State) (src : Nat) (r : Rec) : (s.dropRec src r).free = s.free := by
  unfold State.dropRec; dsimp only; split <;> simp
@[simp] theorem post_free (s : State) (r : Rec) : (s.post r).free = s.free := by
  unfold State.post; split <;> simp
@[simp] theorem event_free (s : State) (p code : Nat) (l : List Fld) : (s.event p code l).free = s.free := post_free s _
@[simp] theorem error_free (s : State) (p code : Nat) (l : List Fld) : (s.error p code l).free = s.free := post_free s _
@[simp] theorem latchErr_out (s : State) (p code seq : Nat) : (s.latchErr p code seq).out = s.out := by
  unfold State.latchErr; dsimp only; split <;> rfl
@[simp] theorem dropRec_out (s : State) (src : Nat) (r : Rec) : (s.dropRec src r).out = s.out := by
  unfold State.dropRec; dsimp only; split <;> simp
@[simp] theorem post_out (s : State) (r : Rec) : (s.post r).out = s.out := by
  unfold State.post; split <;> simp
@[simp] theorem event_out (s : State) (p code : Nat) (l : List Fld) : (s.event p code l).out = s.out := post_out s _
@[simp] theorem error_out (s : State) (p code : Nat) (l : List Fld) : (s.error p code l).out = s.out := post_out s _

/-! ### notify: a message touches the interrupt state and what the block sends -/

@[simp] theorem sendVector_pending (s : State) (v : Nat) : (s.sendVector v).pending = s.pending := by
  unfold State.sendVector; dsimp only; split <;> rfl
@[simp] theorem notify_pending (s : State) (p : Nat) : (s.notify p).pending = s.pending := by
  unfold State.notify; dsimp only; split
  · rfl
  · split <;> simp
@[simp] theorem notifyAll_pending (l : List Nat) (s : State) : (l.foldl State.notify s).pending = s.pending := by
  induction l generalizing s with
  | nil => rfl
  | cons a l ih => simp [ih]
@[simp] theorem sendVector_regs (s : State) (v : Nat) : (s.sendVector v).regs = s.regs := by
  unfold State.sendVector; dsimp only; split <;> rfl
@[simp] theorem notify_regs (s : State) (p : Nat) : (s.notify p).regs = s.regs := by
  unfold State.notify; dsimp only; split
  · rfl
  · split <;> simp
@[simp] theorem notifyAll_regs (l : List Nat) (s : State) : (l.foldl State.notify s).regs = s.regs := by
  induction l generalizing s with
  | nil => rfl
  | cons a l ih => simp [ih]
@[simp] theorem sendVector_act (s : State) (v : Nat) : (s.sendVector v).act = s.act := by
  unfold State.sendVector; dsimp only; split <;> rfl
@[simp] theorem notify_act (s : State) (p : Nat) : (s.notify p).act = s.act := by
  unfold State.notify; dsimp only; split
  · rfl
  · split <;> simp
@[simp] theorem notifyAll_act (l : List Nat) (s : State) : (l.foldl State.notify s).act = s.act := by
  induction l generalizing s with
  | nil => rfl
  | cons a l ih => simp [ih]
@[simp] theorem sendVector_pend (s : State) (v : Nat) : (s.sendVector v).pend = s.pend := by
  unfold State.sendVector; dsimp only; split <;> rfl
@[simp] theorem notify_pend (s : State) (p : Nat) : (s.notify p).pend = s.pend := by
  unfold State.notify; dsimp only; split
  · rfl
  · split <;> simp
@[simp] theorem notifyAll_pend (l : List Nat) (s : State) : (l.foldl State.notify s).pend = s.pend := by
  induction l generalizing s with
  | nil => rfl
  | cons a l ih => simp [ih]
@[simp] theorem sendVector_heldBack (s : State) (v : Nat) : (s.sendVector v).heldBack = s.heldBack := by
  unfold State.sendVector; dsimp only; split <;> rfl
@[simp] theorem notify_heldBack (s : State) (p : Nat) : (s.notify p).heldBack = s.heldBack := by
  unfold State.notify; dsimp only; split
  · rfl
  · split <;> simp
@[simp] theorem notifyAll_heldBack (l : List Nat) (s : State) : (l.foldl State.notify s).heldBack = s.heldBack := by
  induction l generalizing s with
  | nil => rfl
  | cons a l ih => simp [ih]
@[simp] theorem sendVector_mem (s : State) (v : Nat) : (s.sendVector v).mem = s.mem := by
  unfold State.sendVector; dsimp only; split <;> rfl
@[simp] theorem notify_mem (s : State) (p : Nat) : (s.notify p).mem = s.mem := by
  unfold State.notify; dsimp only; split
  · rfl
  · split <;> simp
@[simp] theorem notifyAll_mem (l : List Nat) (s : State) : (l.foldl State.notify s).mem = s.mem := by
  induction l generalizing s with
  | nil => rfl
  | cons a l ih => simp [ih]
@[simp] theorem sendVector_led (s : State) (v : Nat) : (s.sendVector v).led = s.led := by
  unfold State.sendVector; dsimp only; split <;> rfl
@[simp] theorem notify_led (s : State) (p : Nat) : (s.notify p).led = s.led := by
  unfold State.notify; dsimp only; split
  · rfl
  · split <;> simp
@[simp] theorem notifyAll_led (l : List Nat) (s : State) : (l.foldl State.notify s).led = s.led := by
  induction l generalizing s with
  | nil => rfl
  | cons a l ih => simp [ih]
@[simp] theorem sendVector_replay (s : State) (v : Nat) : (s.sendVector v).replay = s.replay := by
  unfold State.sendVector; dsimp only; split <;> rfl
@[simp] theorem notify_replay (s : State) (p : Nat) : (s.notify p).replay = s.replay := by
  unfold State.notify; dsimp only; split
  · rfl
  · split <;> simp
@[simp] theorem notifyAll_replay (l : List Nat) (s : State) : (l.foldl State.notify s).replay = s.replay := by
  induction l generalizing s with
  | nil => rfl
  | cons a l ih => simp [ih]
@[simp] theorem sendVector_lineTime (s : State) (v : Nat) : (s.sendVector v).lineTime = s.lineTime := by
  unfold State.sendVector; dsimp only; split <;> rfl
@[simp] theorem notify_lineTime (s : State) (p : Nat) : (s.notify p).lineTime = s.lineTime := by
  unfold State.notify; dsimp only; split
  · rfl
  · split <;> simp
@[simp] theorem notifyAll_lineTime (l : List Nat) (s : State) : (l.foldl State.notify s).lineTime = s.lineTime := by
  induction l generalizing s with
  | nil => rfl
  | cons a l ih => simp [ih]
@[simp] theorem sendVector_time (s : State) (v : Nat) : (s.sendVector v).time = s.time := by
  unfold State.sendVector; dsimp only; split <;> rfl
@[simp] theorem notify_time (s : State) (p : Nat) : (s.notify p).time = s.time := by
  unfold State.notify; dsimp only; split
  · rfl
  · split <;> simp
@[simp] theorem notifyAll_time (l : List Nat) (s : State) : (l.foldl State.notify s).time = s.time := by
  induction l generalizing s with
  | nil => rfl
  | cons a l ih => simp [ih]
@[simp] theorem sendVector_eth (s : State) (v : Nat) : (s.sendVector v).eth = s.eth := by
  unfold State.sendVector; dsimp only; split <;> rfl
@[simp] theorem notify_eth (s : State) (p : Nat) : (s.notify p).eth = s.eth := by
  unfold State.notify; dsimp only; split
  · rfl
  · split <;> simp
@[simp] theorem notifyAll_eth (l : List Nat) (s : State) : (l.foldl State.notify s).eth = s.eth := by
  induction l generalizing s with
  | nil => rfl
  | cons a l ih => simp [ih]
@[simp] theorem sendVector_lanes (s : State) (v : Nat) : (s.sendVector v).lanes = s.lanes := by
  unfold State.sendVector; dsimp only; split <;> rfl
@[simp] theorem notify_lanes (s : State) (p : Nat) : (s.notify p).lanes = s.lanes := by
  unfold State.notify; dsimp only; split
  · rfl
  · split <;> simp
@[simp] theorem notifyAll_lanes (l : List Nat) (s : State) : (l.foldl State.notify s).lanes = s.lanes := by
  induction l generalizing s with
  | nil => rfl
  | cons a l ih => simp [ih]
@[simp] theorem sendVector_jl (s : State) (v : Nat) : (s.sendVector v).jl = s.jl := by
  unfold State.sendVector; dsimp only; split <;> rfl
@[simp] theorem notify_jl (s : State) (p : Nat) : (s.notify p).jl = s.jl := by
  unfold State.notify; dsimp only; split
  · rfl
  · split <;> simp
@[simp] theorem notifyAll_jl (l : List Nat) (s : State) : (l.foldl State.notify s).jl = s.jl := by
  induction l generalizing s with
  | nil => rfl
  | cons a l ih => simp [ih]
@[simp] theorem sendVector_peers (s : State) (v : Nat) : (s.sendVector v).peers = s.peers := by
  unfold State.sendVector; dsimp only; split <;> rfl
@[simp] theorem notify_peers (s : State) (p : Nat) : (s.notify p).peers = s.peers := by
  unfold State.notify; dsimp only; split
  · rfl
  · split <;> simp
@[simp] theorem notifyAll_peers (l : List Nat) (s : State) : (l.foldl State.notify s).peers = s.peers := by
  induction l generalizing s with
  | nil => rfl
  | cons a l ih => simp [ih]
@[simp] theorem sendVector_slots (s : State) (v : Nat) : (s.sendVector v).slots = s.slots := by
  unfold State.sendVector; dsimp only; split <;> rfl
@[simp] theorem notify_slots (s : State) (p : Nat) : (s.notify p).slots = s.slots := by
  unfold State.notify; dsimp only; split
  · rfl
  · split <;> simp
@[simp] theorem notifyAll_slots (l : List Nat) (s : State) : (l.foldl State.notify s).slots = s.slots := by
  induction l generalizing s with
  | nil => rfl
  | cons a l ih => simp [ih]
@[simp] theorem sendVector_mail (s : State) (v : Nat) : (s.sendVector v).mail = s.mail := by
  unfold State.sendVector; dsimp only; split <;> rfl
@[simp] theorem notify_mail (s : State) (p : Nat) : (s.notify p).mail = s.mail := by
  unfold State.notify; dsimp only; split
  · rfl
  · split <;> simp
@[simp] theorem notifyAll_mail (l : List Nat) (s : State) : (l.foldl State.notify s).mail = s.mail := by
  induction l generalizing s with
  | nil => rfl
  | cons a l ih => simp [ih]
@[simp] theorem sendVector_comp (s : State) (v : Nat) : (s.sendVector v).comp = s.comp := by
  unfold State.sendVector; dsimp only; split <;> rfl
@[simp] theorem notify_comp (s : State) (p : Nat) : (s.notify p).comp = s.comp := by
  unfold State.notify; dsimp only; split
  · rfl
  · split <;> simp
@[simp] theorem notifyAll_comp (l : List Nat) (s : State) : (l.foldl State.notify s).comp = s.comp := by
  induction l generalizing s with
  | nil => rfl
  | cons a l ih => simp [ih]
@[simp] theorem sendVector_sealU (s : State) (v : Nat) : (s.sendVector v).sealU = s.sealU := by
  unfold State.sendVector; dsimp only; split <;> rfl
@[simp] theorem notify_sealU (s : State) (p : Nat) : (s.notify p).sealU = s.sealU := by
  unfold State.notify; dsimp only; split
  · rfl
  · split <;> simp
@[simp] theorem notifyAll_sealU (l : List Nat) (s : State) : (l.foldl State.notify s).sealU = s.sealU := by
  induction l generalizing s with
  | nil => rfl
  | cons a l ih => simp [ih]
@[simp] theorem sendVector_cmp (s : State) (v : Nat) : (s.sendVector v).cmp = s.cmp := by
  unfold State.sendVector; dsimp only; split <;> rfl
@[simp] theorem notify_cmp (s : State) (p : Nat) : (s.notify p).cmp = s.cmp := by
  unfold State.notify; dsimp only; split
  · rfl
  · split <;> simp
@[simp] theorem notifyAll_cmp (l : List Nat) (s : State) : (l.foldl State.notify s).cmp = s.cmp := by
  induction l generalizing s with
  | nil => rfl
  | cons a l ih => simp [ih]
@[simp] theorem sendVector_hbm (s : State) (v : Nat) : (s.sendVector v).hbm = s.hbm := by
  unfold State.sendVector; dsimp only; split <;> rfl
@[simp] theorem notify_hbm (s : State) (p : Nat) : (s.notify p).hbm = s.hbm := by
  unfold State.notify; dsimp only; split
  · rfl
  · split <;> simp
@[simp] theorem notifyAll_hbm (l : List Nat) (s : State) : (l.foldl State.notify s).hbm = s.hbm := by
  induction l generalizing s with
  | nil => rfl
  | cons a l ih => simp [ih]
@[simp] theorem sendVector_scr (s : State) (v : Nat) : (s.sendVector v).scr = s.scr := by
  unfold State.sendVector; dsimp only; split <;> rfl
@[simp] theorem notify_scr (s : State) (p : Nat) : (s.notify p).scr = s.scr := by
  unfold State.notify; dsimp only; split
  · rfl
  · split <;> simp
@[simp] theorem notifyAll_scr (l : List Nat) (s : State) : (l.foldl State.notify s).scr = s.scr := by
  induction l generalizing s with
  | nil => rfl
  | cons a l ih => simp [ih]
@[simp] theorem sendVector_vault (s : State) (v : Nat) : (s.sendVector v).vault = s.vault := by
  unfold State.sendVector; dsimp only; split <;> rfl
@[simp] theorem notify_vault (s : State) (p : Nat) : (s.notify p).vault = s.vault := by
  unfold State.notify; dsimp only; split
  · rfl
  · split <;> simp
@[simp] theorem notifyAll_vault (l : List Nat) (s : State) : (l.foldl State.notify s).vault = s.vault := by
  induction l generalizing s with
  | nil => rfl
  | cons a l ih => simp [ih]
@[simp] theorem sendVector_dma (s : State) (v : Nat) : (s.sendVector v).dma = s.dma := by
  unfold State.sendVector; dsimp only; split <;> rfl
@[simp] theorem notify_dma (s : State) (p : Nat) : (s.notify p).dma = s.dma := by
  unfold State.notify; dsimp only; split
  · rfl
  · split <;> simp
@[simp] theorem notifyAll_dma (l : List Nat) (s : State) : (l.foldl State.notify s).dma = s.dma := by
  induction l generalizing s with
  | nil => rfl
  | cons a l ih => simp [ih]
@[simp] theorem sendVector_host (s : State) (v : Nat) : (s.sendVector v).host = s.host := by
  unfold State.sendVector; dsimp only; split <;> rfl
@[simp] theorem notify_host (s : State) (p : Nat) : (s.notify p).host = s.host := by
  unfold State.notify; dsimp only; split
  · rfl
  · split <;> simp
@[simp] theorem notifyAll_host (l : List Nat) (s : State) : (l.foldl State.notify s).host = s.host := by
  induction l generalizing s with
  | nil => rfl
  | cons a l ih => simp [ih]
@[simp] theorem sendVector_chk (s : State) (v : Nat) : (s.sendVector v).chk = s.chk := by
  unfold State.sendVector; dsimp only; split <;> rfl
@[simp] theorem notify_chk (s : State) (p : Nat) : (s.notify p).chk = s.chk := by
  unfold State.notify; dsimp only; split
  · rfl
  · split <;> simp
@[simp] theorem notifyAll_chk (l : List Nat) (s : State) : (l.foldl State.notify s).chk = s.chk := by
  induction l generalizing s with
  | nil => rfl
  | cons a l ih => simp [ih]
@[simp] theorem sendVector_loops (s : State) (v : Nat) : (s.sendVector v).loops = s.loops := by
  unfold State.sendVector; dsimp only; split <;> rfl
@[simp] theorem notify_loops (s : State) (p : Nat) : (s.notify p).loops = s.loops := by
  unfold State.notify; dsimp only; split
  · rfl
  · split <;> simp
@[simp] theorem notifyAll_loops (l : List Nat) (s : State) : (l.foldl State.notify s).loops = s.loops := by
  induction l generalizing s with
  | nil => rfl
  | cons a l ih => simp [ih]
@[simp] theorem sendVector_segs (s : State) (v : Nat) : (s.sendVector v).segs = s.segs := by
  unfold State.sendVector; dsimp only; split <;> rfl
@[simp] theorem notify_segs (s : State) (p : Nat) : (s.notify p).segs = s.segs := by
  unfold State.notify; dsimp only; split
  · rfl
  · split <;> simp
@[simp] theorem notifyAll_segs (l : List Nat) (s : State) : (l.foldl State.notify s).segs = s.segs := by
  induction l generalizing s with
  | nil => rfl
  | cons a l ih => simp [ih]
@[simp] theorem sendVector_split (s : State) (v : Nat) : (s.sendVector v).split = s.split := by
  unfold State.sendVector; dsimp only; split <;> rfl
@[simp] theorem notify_split (s : State) (p : Nat) : (s.notify p).split = s.split := by
  unfold State.notify; dsimp only; split
  · rfl
  · split <;> simp
@[simp] theorem notifyAll_split (l : List Nat) (s : State) : (l.foldl State.notify s).split = s.split := by
  induction l generalizing s with
  | nil => rfl
  | cons a l ih => simp [ih]
@[simp] theorem sendVector_place (s : State) (v : Nat) : (s.sendVector v).place = s.place := by
  unfold State.sendVector; dsimp only; split <;> rfl
@[simp] theorem notify_place (s : State) (p : Nat) : (s.notify p).place = s.place := by
  unfold State.notify; dsimp only; split
  · rfl
  · split <;> simp
@[simp] theorem notifyAll_place (l : List Nat) (s : State) : (l.foldl State.notify s).place = s.place := by
  induction l generalizing s with
  | nil => rfl
  | cons a l ih => simp [ih]
@[simp] theorem sendVector_samples (s : State) (v : Nat) : (s.sendVector v).samples = s.samples := by
  unfold State.sendVector; dsimp only; split <;> rfl
@[simp] theorem notify_samples (s : State) (p : Nat) : (s.notify p).samples = s.samples := by
  unfold State.notify; dsimp only; split
  · rfl
  · split <;> simp
@[simp] theorem notifyAll_samples (l : List Nat) (s : State) : (l.foldl State.notify s).samples = s.samples := by
  induction l generalizing s with
  | nil => rfl
  | cons a l ih => simp [ih]
@[simp] theorem sendVector_sampleRun (s : State) (v : Nat) : (s.sendVector v).sampleRun = s.sampleRun := by
  unfold State.sendVector; dsimp only; split <;> rfl
@[simp] theorem notify_sampleRun (s : State) (p : Nat) : (s.notify p).sampleRun = s.sampleRun := by
  unfold State.notify; dsimp only; split
  · rfl
  · split <;> simp
@[simp] theorem notifyAll_sampleRun (l : List Nat) (s : State) : (l.foldl State.notify s).sampleRun = s.sampleRun := by
  induction l generalizing s with
  | nil => rfl
  | cons a l ih => simp [ih]
@[simp] theorem sendVector_web (s : State) (v : Nat) : (s.sendVector v).web = s.web := by
  unfold State.sendVector; dsimp only; split <;> rfl
@[simp] theorem notify_web (s : State) (p : Nat) : (s.notify p).web = s.web := by
  unfold State.notify; dsimp only; split
  · rfl
  · split <;> simp
@[simp] theorem notifyAll_web (l : List Nat) (s : State) : (l.foldl State.notify s).web = s.web := by
  induction l generalizing s with
  | nil => rfl
  | cons a l ih => simp [ih]
@[simp] theorem sendVector_axes (s : State) (v : Nat) : (s.sendVector v).axes = s.axes := by
  unfold State.sendVector; dsimp only; split <;> rfl
@[simp] theorem notify_axes (s : State) (p : Nat) : (s.notify p).axes = s.axes := by
  unfold State.notify; dsimp only; split
  · rfl
  · split <;> simp
@[simp] theorem notifyAll_axes (l : List Nat) (s : State) : (l.foldl State.notify s).axes = s.axes := by
  induction l generalizing s with
  | nil => rfl
  | cons a l ih => simp [ih]
@[simp] theorem sendVector_headSafe (s : State) (v : Nat) : (s.sendVector v).headSafe = s.headSafe := by
  unfold State.sendVector; dsimp only; split <;> rfl
@[simp] theorem notify_headSafe (s : State) (p : Nat) : (s.notify p).headSafe = s.headSafe := by
  unfold State.notify; dsimp only; split
  · rfl
  · split <;> simp
@[simp] theorem notifyAll_headSafe (l : List Nat) (s : State) : (l.foldl State.notify s).headSafe = s.headSafe := by
  induction l generalizing s with
  | nil => rfl
  | cons a l ih => simp [ih]
@[simp] theorem sendVector_life (s : State) (v : Nat) : (s.sendVector v).life = s.life := by
  unfold State.sendVector; dsimp only; split <;> rfl
@[simp] theorem notify_life (s : State) (p : Nat) : (s.notify p).life = s.life := by
  unfold State.notify; dsimp only; split
  · rfl
  · split <;> simp
@[simp] theorem notifyAll_life (l : List Nat) (s : State) : (l.foldl State.notify s).life = s.life := by
  induction l generalizing s with
  | nil => rfl
  | cons a l ih => simp [ih]
@[simp] theorem sendVector_power (s : State) (v : Nat) : (s.sendVector v).power = s.power := by
  unfold State.sendVector; dsimp only; split <;> rfl
@[simp] theorem notify_power (s : State) (p : Nat) : (s.notify p).power = s.power := by
  unfold State.notify; dsimp only; split
  · rfl
  · split <;> simp
@[simp] theorem notifyAll_power (l : List Nat) (s : State) : (l.foldl State.notify s).power = s.power := by
  induction l generalizing s with
  | nil => rfl
  | cons a l ih => simp [ih]
@[simp] theorem sendVector_tap (s : State) (v : Nat) : (s.sendVector v).tap = s.tap := by
  unfold State.sendVector; dsimp only; split <;> rfl
@[simp] theorem notify_tap (s : State) (p : Nat) : (s.notify p).tap = s.tap := by
  unfold State.notify; dsimp only; split
  · rfl
  · split <;> simp
@[simp] theorem notifyAll_tap (l : List Nat) (s : State) : (l.foldl State.notify s).tap = s.tap := by
  induction l generalizing s with
  | nil => rfl
  | cons a l ih => simp [ih]
@[simp] theorem sendVector_free (s : State) (v : Nat) : (s.sendVector v).free = s.free := by
  unfold State.sendVector; dsimp only; split <;> rfl
@[simp] theorem notify_free (s : State) (p : Nat) : (s.notify p).free = s.free := by
  unfold State.notify; dsimp only; split
  · rfl
  · split <;> simp
@[simp] theorem notifyAll_free (l : List Nat) (s : State) : (l.foldl State.notify s).free = s.free := by
  induction l generalizing s with
  | nil => rfl
  | cons a l ih => simp [ih]

/-! ### settled, settle: the end of a command -/

@[simp] theorem settled_pending (s t : State) : (settled s t).pending = s.pending := by
  simp [settled, State.followLevels]
@[simp] theorem settle_pending (s t : State) : (settle s t).pending = s.pending := by
  unfold settle; split <;> simp
@[simp] theorem settled_regs (s t : State) : (settled s t).regs = t.regs := by
  simp [settled, State.followLevels]
theorem settle_regs (s t : State) (h : s.power.st ≠ 4) : (settle s t).regs = t.regs := by
  simp [settle, h]
@[simp] theorem settled_act (s t : State) : (settled s t).act = t.act := by
  simp [settled, State.followLevels]
theorem settle_act (s t : State) (h : s.power.st ≠ 4) : (settle s t).act = t.act := by
  simp [settle, h]
@[simp] theorem settled_pend (s t : State) : (settled s t).pend = t.pend := by
  simp [settled, State.followLevels]
theorem settle_pend (s t : State) (h : s.power.st ≠ 4) : (settle s t).pend = t.pend := by
  simp [settle, h]
@[simp] theorem settled_heldBack (s t : State) : (settled s t).heldBack = t.heldBack := by
  simp [settled, State.followLevels]
theorem settle_heldBack (s t : State) (h : s.power.st ≠ 4) : (settle s t).heldBack = t.heldBack := by
  simp [settle, h]
@[simp] theorem settled_mem (s t : State) : (settled s t).mem = t.mem := by
  simp [settled, State.followLevels]
theorem settle_mem (s t : State) (h : s.power.st ≠ 4) : (settle s t).mem = t.mem := by
  simp [settle, h]
@[simp] theorem settled_led (s t : State) : (settled s t).led = t.led := by
  simp [settled, State.followLevels]
theorem settle_led (s t : State) (h : s.power.st ≠ 4) : (settle s t).led = t.led := by
  simp [settle, h]
@[simp] theorem settled_replay (s t : State) : (settled s t).replay = t.replay := by
  simp [settled, State.followLevels]
theorem settle_replay (s t : State) (h : s.power.st ≠ 4) : (settle s t).replay = t.replay := by
  simp [settle, h]
@[simp] theorem settled_lineTime (s t : State) : (settled s t).lineTime = t.lineTime := by
  simp [settled, State.followLevels]
theorem settle_lineTime (s t : State) (h : s.power.st ≠ 4) : (settle s t).lineTime = t.lineTime := by
  simp [settle, h]
@[simp] theorem settled_time (s t : State) : (settled s t).time = t.time := by
  simp [settled, State.followLevels]
theorem settle_time (s t : State) (h : s.power.st ≠ 4) : (settle s t).time = t.time := by
  simp [settle, h]
@[simp] theorem settled_eth (s t : State) : (settled s t).eth = t.eth := by
  simp [settled, State.followLevels]
theorem settle_eth (s t : State) (h : s.power.st ≠ 4) : (settle s t).eth = t.eth := by
  simp [settle, h]
@[simp] theorem settled_lanes (s t : State) : (settled s t).lanes = t.lanes := by
  simp [settled, State.followLevels]
theorem settle_lanes (s t : State) (h : s.power.st ≠ 4) : (settle s t).lanes = t.lanes := by
  simp [settle, h]
@[simp] theorem settled_jl (s t : State) : (settled s t).jl = t.jl := by
  simp [settled, State.followLevels]
theorem settle_jl (s t : State) (h : s.power.st ≠ 4) : (settle s t).jl = t.jl := by
  simp [settle, h]
@[simp] theorem settled_peers (s t : State) : (settled s t).peers = t.peers := by
  simp [settled, State.followLevels]
theorem settle_peers (s t : State) (h : s.power.st ≠ 4) : (settle s t).peers = t.peers := by
  simp [settle, h]
@[simp] theorem settled_slots (s t : State) : (settled s t).slots = t.slots := by
  simp [settled, State.followLevels]
theorem settle_slots (s t : State) (h : s.power.st ≠ 4) : (settle s t).slots = t.slots := by
  simp [settle, h]
@[simp] theorem settled_mail (s t : State) : (settled s t).mail = t.mail := by
  simp [settled, State.followLevels]
theorem settle_mail (s t : State) (h : s.power.st ≠ 4) : (settle s t).mail = t.mail := by
  simp [settle, h]
@[simp] theorem settled_comp (s t : State) : (settled s t).comp = t.comp := by
  simp [settled, State.followLevels]
theorem settle_comp (s t : State) (h : s.power.st ≠ 4) : (settle s t).comp = t.comp := by
  simp [settle, h]
@[simp] theorem settled_sealU (s t : State) : (settled s t).sealU = t.sealU := by
  simp [settled, State.followLevels]
theorem settle_sealU (s t : State) (h : s.power.st ≠ 4) : (settle s t).sealU = t.sealU := by
  simp [settle, h]
@[simp] theorem settled_cmp (s t : State) : (settled s t).cmp = t.cmp := by
  simp [settled, State.followLevels]
theorem settle_cmp (s t : State) (h : s.power.st ≠ 4) : (settle s t).cmp = t.cmp := by
  simp [settle, h]
@[simp] theorem settled_hbm (s t : State) : (settled s t).hbm = t.hbm := by
  simp [settled, State.followLevels]
theorem settle_hbm (s t : State) (h : s.power.st ≠ 4) : (settle s t).hbm = t.hbm := by
  simp [settle, h]
@[simp] theorem settled_scr (s t : State) : (settled s t).scr = t.scr := by
  simp [settled, State.followLevels]
theorem settle_scr (s t : State) (h : s.power.st ≠ 4) : (settle s t).scr = t.scr := by
  simp [settle, h]
@[simp] theorem settled_vault (s t : State) : (settled s t).vault = t.vault := by
  simp [settled, State.followLevels]
theorem settle_vault (s t : State) (h : s.power.st ≠ 4) : (settle s t).vault = t.vault := by
  simp [settle, h]
@[simp] theorem settled_dma (s t : State) : (settled s t).dma = t.dma := by
  simp [settled, State.followLevels]
theorem settle_dma (s t : State) (h : s.power.st ≠ 4) : (settle s t).dma = t.dma := by
  simp [settle, h]
@[simp] theorem settled_host (s t : State) : (settled s t).host = t.host := by
  simp [settled, State.followLevels]
theorem settle_host (s t : State) (h : s.power.st ≠ 4) : (settle s t).host = t.host := by
  simp [settle, h]
@[simp] theorem settled_chk (s t : State) : (settled s t).chk = t.chk := by
  simp [settled, State.followLevels]
theorem settle_chk (s t : State) (h : s.power.st ≠ 4) : (settle s t).chk = t.chk := by
  simp [settle, h]
@[simp] theorem settled_loops (s t : State) : (settled s t).loops = t.loops := by
  simp [settled, State.followLevels]
theorem settle_loops (s t : State) (h : s.power.st ≠ 4) : (settle s t).loops = t.loops := by
  simp [settle, h]
@[simp] theorem settled_segs (s t : State) : (settled s t).segs = t.segs := by
  simp [settled, State.followLevels]
theorem settle_segs (s t : State) (h : s.power.st ≠ 4) : (settle s t).segs = t.segs := by
  simp [settle, h]
@[simp] theorem settled_split (s t : State) : (settled s t).split = t.split := by
  simp [settled, State.followLevels]
theorem settle_split (s t : State) (h : s.power.st ≠ 4) : (settle s t).split = t.split := by
  simp [settle, h]
@[simp] theorem settled_place (s t : State) : (settled s t).place = t.place := by
  simp [settled, State.followLevels]
theorem settle_place (s t : State) (h : s.power.st ≠ 4) : (settle s t).place = t.place := by
  simp [settle, h]
@[simp] theorem settled_samples (s t : State) : (settled s t).samples = t.samples := by
  simp [settled, State.followLevels]
theorem settle_samples (s t : State) (h : s.power.st ≠ 4) : (settle s t).samples = t.samples := by
  simp [settle, h]
@[simp] theorem settled_sampleRun (s t : State) : (settled s t).sampleRun = t.sampleRun := by
  simp [settled, State.followLevels]
theorem settle_sampleRun (s t : State) (h : s.power.st ≠ 4) : (settle s t).sampleRun = t.sampleRun := by
  simp [settle, h]
@[simp] theorem settled_web (s t : State) : (settled s t).web = t.web := by
  simp [settled, State.followLevels]
theorem settle_web (s t : State) (h : s.power.st ≠ 4) : (settle s t).web = t.web := by
  simp [settle, h]
@[simp] theorem settled_axes (s t : State) : (settled s t).axes = t.axes := by
  simp [settled, State.followLevels]
theorem settle_axes (s t : State) (h : s.power.st ≠ 4) : (settle s t).axes = t.axes := by
  simp [settle, h]
@[simp] theorem settled_headSafe (s t : State) : (settled s t).headSafe = t.headSafe := by
  simp [settled, State.followLevels]
theorem settle_headSafe (s t : State) (h : s.power.st ≠ 4) : (settle s t).headSafe = t.headSafe := by
  simp [settle, h]
@[simp] theorem settled_life (s t : State) : (settled s t).life = t.life := by
  simp [settled, State.followLevels]
theorem settle_life (s t : State) (h : s.power.st ≠ 4) : (settle s t).life = t.life := by
  simp [settle, h]
@[simp] theorem settled_power (s t : State) : (settled s t).power = t.power := by
  simp [settled, State.followLevels]
theorem settle_power (s t : State) (h : s.power.st ≠ 4) : (settle s t).power = t.power := by
  simp [settle, h]
@[simp] theorem settled_tap (s t : State) : (settled s t).tap = t.tap := by
  simp [settled, State.followLevels]
theorem settle_tap (s t : State) (h : s.power.st ≠ 4) : (settle s t).tap = t.tap := by
  simp [settle, h]
@[simp] theorem settled_free (s t : State) : (settled s t).free = t.free := by
  simp [settled, State.followLevels]
theorem settle_free (s t : State) (h : s.power.st ≠ 4) : (settle s t).free = t.free := by
  simp [settle, h]

end Sys2Proof.Laws
end

