-- ==== Sys2Proof/Laws/Exec.lean ====
section
/-! SUPPORT. What one command and one step can do at most: the end of a command, after some effect. -/

namespace Sys2Proof.Laws
open Sys2Proof Sys2Proof.Machine

/-- An answer of `.next` of some state is that state. -/
theorem settle_of_next {s u t : State} (h : (Host.Outcome.next (settle s u) : Host.Outcome State Fault Refusal) = .next t) :
    ∃ v, t = settle s v := by
  cases h; exact ⟨u, rfl⟩

/-- Every command but POWER_ON and TAMPER ends in `settle`. -/
theorem exec_next {c : Instr} {s t : State} (h : exec c s = .next t) (h1 : ∀ l, c ≠ .tamper l) (h2 : ∀ a, c ≠ .powerOn a) :
    ∃ u, t = settle s u := by
  cases c <;> first
    | exact settle_of_next h
    | exact absurd rfl (h1 _)
    | exact absurd rfl (h2 _)
    | skip
  case jtagInstruction op =>
    cases op with
    | otherTest code =>
      simp only [exec, execJtagInstruction] at h
      split at h
      · cases h
      · exact settle_of_next h
    | _ => exact settle_of_next h

/-- The effect of TAMPER and POWER_ON ends in `settled` also in OFF. -/
theorem exec_tamper (s : State) (l : List Bool) : exec (.tamper l) s = .next (settled s (s.tamper l)) := rfl
theorem exec_powerOn (s : State) (a : Bool) : exec (.powerOn a) s = .next (settled s (s.powerOn a)) := rfl

/-- A step with a command in front runs it on the state without it. -/
theorem step_cons {s : State} {c : Instr} {rest : List Instr} (h : s.pending = c :: rest) :
    step s = exec c { s with pending := rest } := by
  simp [step, h]

/-- A step with no command in front lets the clocks go on. -/
theorem step_nil {s : State} (h : s.pending = []) : step s = .next s.tick := by
  simp [step, h]

end Sys2Proof.Laws
end

