-- ==== Sys2Proof/Laws/Sparse.lean ====
section
/-! SUPPORT. Laws of the sparse maps: a read after a write, and that every operation keeps the canonical form. -/

namespace Sys2Proof.Laws
open Sys2Proof.Machine

/-! ### Reads of a map after a write -/

/-- A write leaves every other key alone. -/
@[simp] theorem sparseGet_sparseSet_ne {α : Type} [DecidableEq α] (l : List (Nat × α)) (k j : Nat) (v d e : α) (h : j ≠ k) :
    sparseGet (sparseSet l k v d) j e = sparseGet l j e := by
  induction l with
  | nil => simp only [sparseSet]; split <;> simp [sparseGet, h.symm]
  | cons p t ih =>
    obtain ⟨a, w⟩ := p
    simp only [sparseSet]
    split
    · split <;> simp [sparseGet, h.symm]
    · split
      · next hk => subst hk; split <;> simp [sparseGet, h.symm]
      · simp [sparseGet, ih]

/-- A rising list that starts above a key does not list it. -/
theorem sparseGet_of_rising {α : Type} (l : List (Nat × α)) (lo k : Nat) (d : α) (h : risingFrom lo l = true) (hk : k < lo) :
    sparseGet l k d = d := by
  induction l generalizing lo with
  | nil => rfl
  | cons p t ih =>
    obtain ⟨a, w⟩ := p
    simp only [risingFrom, Bool.and_eq_true, decide_eq_true_eq] at h
    have : a ≠ k := by omega
    simp only [sparseGet, this, if_false]
    exact ih (a + 1) h.2 (by omega)

/-- A write of a key of a rising list is what a read of that key returns. -/
theorem sparseGet_sparseSet {α : Type} [DecidableEq α] (l : List (Nat × α)) (lo k : Nat) (v d : α) (h : risingFrom lo l = true) :
    sparseGet (sparseSet l k v d) k d = v := by
  induction l generalizing lo with
  | nil => simp only [sparseSet]; split <;> simp_all [sparseGet]
  | cons p t ih =>
    obtain ⟨a, w⟩ := p
    simp only [risingFrom, Bool.and_eq_true, decide_eq_true_eq] at h
    simp only [sparseSet]
    split
    · next hk =>
      split
      · next hv => subst hv; simp only [sparseGet]; rw [if_neg (by omega)]; exact sparseGet_of_rising t (a + 1) k v h.2 (by omega)
      · simp [sparseGet]
    · split
      · next hk =>
        subst hk
        split
        · next hv => subst hv; exact sparseGet_of_rising t (k + 1) k v h.2 (by omega)
        · simp [sparseGet]
      · next h1 h2 => simp only [sparseGet]; rw [if_neg (fun e => h2 e.symm)]; exact ih (a + 1) h.2

/-! ### The canonical form -/

/-- A lower bound of a rising list may be lowered. -/
theorem risingFrom_mono {α : Type} (l : List (Nat × α)) (a b : Nat) (h : risingFrom a l = true) (hb : b ≤ a) : risingFrom b l = true := by
  cases l with
  | nil => rfl
  | cons p t =>
    obtain ⟨k, w⟩ := p
    simp only [risingFrom, Bool.and_eq_true, decide_eq_true_eq] at h ⊢
    exact ⟨by omega, h.2⟩

/-- A write keeps the keys rising. -/
theorem risingFrom_sparseSet {α : Type} [DecidableEq α] (l : List (Nat × α)) (lo k : Nat) (v d : α) (h : risingFrom lo l = true)
    (hk : lo ≤ k) : risingFrom lo (sparseSet l k v d) = true := by
  induction l generalizing lo with
  | nil => simp only [sparseSet]; split <;> simp [risingFrom, hk]
  | cons p t ih =>
    obtain ⟨a, w⟩ := p
    have h' := h
    simp only [risingFrom, Bool.and_eq_true, decide_eq_true_eq] at h
    simp only [sparseSet]
    split
    · next hlt =>
      split
      · exact h'
      · simp only [risingFrom, Bool.and_eq_true, decide_eq_true_eq]; exact ⟨hk, by omega, h.2⟩
    · split
      · next he =>
        subst he
        split
        · exact risingFrom_mono t (k + 1) lo h.2 (by omega)
        · simp only [risingFrom, Bool.and_eq_true, decide_eq_true_eq]; exact ⟨hk, h.2⟩
      · simp only [risingFrom, Bool.and_eq_true, decide_eq_true_eq]
        exact ⟨h.1, ih (a + 1) h.2 (by omega)⟩

/-- Entries after a write are the written one or were there before. -/
theorem mem_sparseSet {α : Type} [DecidableEq α] (l : List (Nat × α)) (k : Nat) (v d : α) (p : Nat × α) (h : p ∈ sparseSet l k v d) :
    p ∈ l ∨ (p = (k, v) ∧ v ≠ d) := by
  induction l with
  | nil => simp only [sparseSet] at h; split at h <;> simp_all
  | cons q t ih =>
    obtain ⟨a, w⟩ := q
    simp only [sparseSet] at h
    split at h
    · split at h
      · exact .inl h
      · rcases List.mem_cons.mp h with rfl | h
        · exact .inr ⟨rfl, ‹_›⟩
        · exact .inl h
    · split at h
      · split at h
        · exact .inl (List.mem_cons_of_mem _ h)
        · rcases List.mem_cons.mp h with rfl | h
          · exact .inr ⟨rfl, ‹_›⟩
          · exact .inl (List.mem_cons_of_mem _ h)
      · rcases List.mem_cons.mp h with rfl | h
        · exact .inl (List.mem_cons_self ..)
        · rcases ih h with h | h
          · exact .inl (List.mem_cons_of_mem _ h)
          · exact .inr h

/-- A write keeps the canonical form. -/
theorem sparseWf_sparseSet {α : Type} [DecidableEq α] (d : Nat → α) (l : List (Nat × α)) (k : Nat) (v : α) (h : sparseWf d l = true) :
    sparseWf d (sparseSet l k v (d k)) = true := by
  simp only [sparseWf, Bool.and_eq_true, List.all_eq_true, decide_eq_true_eq] at h ⊢
  refine ⟨risingFrom_sparseSet l 0 k v (d k) h.1 (Nat.zero_le _), fun p hp => ?_⟩
  rcases mem_sparseSet l k v (d k) p hp with hp | ⟨rfl, hv⟩
  · exact h.2 p hp
  · exact hv

/-- Choosing entries keeps the keys rising. -/
theorem risingFrom_filter {α : Type} (q : Nat × α → Bool) (l : List (Nat × α)) (lo : Nat) (h : risingFrom lo l = true) :
    risingFrom lo (l.filter q) = true := by
  induction l generalizing lo with
  | nil => rfl
  | cons p t ih =>
    obtain ⟨a, w⟩ := p
    simp only [risingFrom, Bool.and_eq_true, decide_eq_true_eq] at h
    simp only [List.filter_cons]
    split
    · simp only [risingFrom, Bool.and_eq_true, decide_eq_true_eq]; exact ⟨h.1, ih (a + 1) h.2⟩
    · exact risingFrom_mono _ (a + 1) lo (ih (a + 1) h.2) (by omega)

/-- Choosing entries keeps the canonical form. -/
theorem sparseWf_filter {α : Type} [DecidableEq α] (d : Nat → α) (q : Nat × α → Bool) (l : List (Nat × α)) (h : sparseWf d l = true) :
    sparseWf d (l.filter q) = true := by
  simp only [sparseWf, Bool.and_eq_true, List.all_eq_true, decide_eq_true_eq] at h ⊢
  exact ⟨risingFrom_filter q l 0 h.1, fun p hp => h.2 p (List.mem_of_mem_filter hp)⟩

/-- Two rising lists, all of whose keys of the first lie below a bound that the second starts at, are rising in a row. -/
theorem risingFrom_append {α : Type} (l r : List (Nat × α)) (lo m : Nat) (h : risingFrom lo l = true) (hm : ∀ p ∈ l, p.1 < m)
    (hr : risingFrom m r = true) (hlo : lo ≤ m) : risingFrom lo (l ++ r) = true := by
  induction l generalizing lo with
  | nil => exact risingFrom_mono r m lo hr hlo
  | cons p t ih =>
    obtain ⟨a, w⟩ := p
    simp only [risingFrom, Bool.and_eq_true, decide_eq_true_eq, List.cons_append] at h ⊢
    have ha := hm (a, w) (List.mem_cons_self ..)
    exact ⟨h.1, ih (a + 1) h.2 (fun p hp => hm p (List.mem_cons_of_mem _ hp)) (by simpa using ha)⟩

/-! ### Byte memories -/

/-- Keys of the entries of a run of bytes. -/
theorem sparseCells_keys (bs : List Byte) (a : Nat) : ∀ p ∈ sparseCells a bs, a ≤ p.1 ∧ p.1 < a + bs.length ∧ p.2 ≠ 0 := by
  induction bs generalizing a with
  | nil => simp [sparseCells]
  | cons b bs ih =>
    intro p hp
    simp only [sparseCells] at hp
    split at hp
    · obtain ⟨h1, h2, h3⟩ := ih (a + 1) p hp; simp only [List.length_cons]; exact ⟨by omega, by omega, h3⟩
    · rcases List.mem_cons.mp hp with rfl | hp
      · simp only [List.length_cons]; exact ⟨Nat.le_refl _, by omega, ‹_›⟩
      · obtain ⟨h1, h2, h3⟩ := ih (a + 1) p hp; simp only [List.length_cons]; exact ⟨by omega, by omega, h3⟩

/-- The entries of a run of bytes rise. -/
theorem risingFrom_sparseCells (bs : List Byte) (a : Nat) : risingFrom a (sparseCells a bs) = true := by
  induction bs generalizing a with
  | nil => rfl
  | cons b bs ih =>
    simp only [sparseCells]
    split
    · exact risingFrom_mono _ (a + 1) a (ih (a + 1)) (by omega)
    · simp [risingFrom, ih]

/-- Entries at or above an address rise from it. -/
theorem risingFrom_memFrom (m : List (Nat × Byte)) (lo a : Nat) (h : risingFrom lo m = true) : risingFrom a (memFrom m a) = true := by
  induction m generalizing lo with
  | nil => rfl
  | cons p t ih =>
    obtain ⟨k, w⟩ := p
    simp only [risingFrom, Bool.and_eq_true, decide_eq_true_eq] at h
    simp only [memFrom, List.filter_cons]
    split
    · next hk =>
      simp only [risingFrom, Bool.and_eq_true]
      exact ⟨hk, risingFrom_filter _ t (k + 1) h.2⟩
    · exact ih (k + 1) h.2

/-- A store keeps the canonical form of a byte memory. -/
theorem memWf_memWrite (m : List (Nat × Byte)) (a : Nat) (bs : List Byte) (h : memWf m = true) : memWf (memWrite m a bs) = true := by
  have hb := sparseWf_filter (fun _ => (0 : Byte)) (fun c => decide (c.1 < a)) m h
  have hf := sparseWf_filter (fun _ => (0 : Byte)) (fun c => decide (a + bs.length ≤ c.1)) m h
  simp only [memWf, sparseWf, Bool.and_eq_true, List.all_eq_true, decide_eq_true_eq] at h hb hf ⊢
  refine ⟨?_, fun p hp => ?_⟩
  · unfold memWrite
    refine risingFrom_append _ _ 0 (a + bs.length) ?_ (fun p hp => ?_) (risingFrom_memFrom m 0 _ h.1) (Nat.zero_le _)
    · refine risingFrom_append _ _ 0 a hb.1 (fun p hp => ?_) (risingFrom_sparseCells bs a) (Nat.zero_le _)
      simpa using (List.mem_filter.mp hp).2
    · rcases List.mem_append.mp hp with hp | hp
      · have : p.1 < a := by simpa using (List.mem_filter.mp hp).2
        omega
      · exact (sparseCells_keys bs a p hp).2.1
  · unfold memWrite at hp
    rcases List.mem_append.mp hp with hp | hp
    · rcases List.mem_append.mp hp with hp | hp
      · exact hb.2 p hp
      · exact (sparseCells_keys bs a p hp).2.2
    · exact hf.2 p hp

/-- Clearing a range keeps the canonical form of a byte memory. -/
theorem memWf_memZero (m : List (Nat × Byte)) (a n : Nat) (h : memWf m = true) : memWf (memZero m a n) = true :=
  sparseWf_filter _ _ m h

/-- A store with byte enables keeps the canonical form of a byte memory. -/
theorem memWf_memWriteEn (m : List (Nat × Byte)) (a : Nat) (bs : List (Option Byte)) (h : memWf m = true) :
    memWf (memWriteEn m a bs) = true := by
  induction bs generalizing m a with
  | nil => exact h
  | cons b bs ih => cases b with
    | none => exact ih m (a + 1) h
    | some b => exact ih _ (a + 1) (memWf_memWrite m a [b] h)

/-- A read of a list skips entries that are not of its key. -/
theorem sparseGet_append_of_not {α : Type} (l r : List (Nat × α)) (k : Nat) (d : α) (h : ∀ p ∈ l, p.1 ≠ k) :
    sparseGet (l ++ r) k d = sparseGet r k d := by
  induction l with
  | nil => rfl
  | cons p t ih =>
    obtain ⟨a, w⟩ := p
    have ha := h (a, w) (List.mem_cons_self ..)
    simp only [List.cons_append, sparseGet]
    rw [if_neg ha]
    exact ih fun p hp => h p (List.mem_cons_of_mem _ hp)

/-- A read of a list whose second part does not list the key reads the first part. -/
theorem sparseGet_append_left {α : Type} (l r : List (Nat × α)) (k : Nat) (d : α) (h : ∀ p ∈ r, p.1 ≠ k) :
    sparseGet (l ++ r) k d = sparseGet l k d := by
  induction l with
  | nil => simpa using sparseGet_append_of_not r [] k d h
  | cons p t ih =>
    obtain ⟨a, w⟩ := p
    simp only [List.cons_append, sparseGet, ih]

/-- Choosing entries by a test that the key passes does not change what it reads as. -/
theorem sparseGet_filter {α : Type} (q : Nat → Bool) (l : List (Nat × α)) (k : Nat) (d : α) (h : q k = true) :
    sparseGet (l.filter fun c => q c.1) k d = sparseGet l k d := by
  induction l with
  | nil => rfl
  | cons p t ih =>
    obtain ⟨a, w⟩ := p
    simp only [List.filter_cons]
    split
    · simp only [sparseGet, ih]
    · next hq =>
      have : a ≠ k := fun e => hq (by simpa [e] using h)
      simp only [sparseGet, this, if_false, ih]

/-- What the entries of a run of bytes read as. -/
theorem sparseGet_sparseCells (bs : List Byte) (a k : Nat) (h : k < bs.length) : sparseGet (sparseCells a bs) (a + k) 0 = bs[k] := by
  induction bs generalizing a k with
  | nil => simp at h
  | cons b bs ih =>
    have hk : a + 1 + (k - 1) = a + k ∨ k = 0 := by omega
    cases k with
    | zero =>
      simp only [sparseCells]
      split
      · next hb =>
        have hz := sparseGet_append_of_not (sparseCells (a + 1) bs) [] (a + 0) (0 : Byte)
          (fun p hp => by have := sparseCells_keys bs (a + 1) p hp; omega)
        simpa [sparseGet, hb] using hz
      · simp [sparseGet]
    | succ j =>
      have ih' := ih (a + 1) j (by simpa using h)
      have e : a + 1 + j = a + (j + 1) := by omega
      rw [e] at ih'
      simp only [sparseCells]
      split
      · simpa using ih'
      · simp only [sparseGet]
        rw [if_neg (by omega)]
        simpa using ih'

/-- A byte that a store covers reads as stored. -/
theorem memByte_memWrite_in (m : List (Nat × Byte)) (a k : Nat) (bs : List Byte) (h : k < bs.length) :
    memByte (memWrite m a bs) (a + k) = bs[k] := by
  have hf : ∀ p ∈ memFrom m (a + bs.length), p.1 ≠ a + k := fun p hp => by
    have : a + bs.length ≤ p.1 := by simpa using (List.mem_filter.mp hp).2
    omega
  have hb : ∀ p ∈ memBelow m a, p.1 ≠ a + k := fun p hp => by
    have : p.1 < a := by simpa using (List.mem_filter.mp hp).2
    omega
  rw [memByte, memWrite, sparseGet_append_left _ _ _ _ hf, sparseGet_append_of_not _ _ _ _ hb, sparseGet_sparseCells bs a k h]

/-- A store leaves every byte outside it alone. -/
theorem memByte_memWrite_out (m : List (Nat × Byte)) (a x : Nat) (bs : List Byte) (h : x < a ∨ a + bs.length ≤ x) :
    memByte (memWrite m a bs) x = memByte m x := by
  have hc : ∀ p ∈ sparseCells a bs, p.1 ≠ x := fun p hp => by have := sparseCells_keys bs a p hp; omega
  rcases h with h | h
  · have hf : ∀ p ∈ memFrom m (a + bs.length), p.1 ≠ x := fun p hp => by
      have : a + bs.length ≤ p.1 := by simpa using (List.mem_filter.mp hp).2
      omega
    rw [memByte, memWrite, sparseGet_append_left _ _ _ _ hf, sparseGet_append_left _ _ _ _ hc]
    exact sparseGet_filter (fun c => decide (c < a)) m x 0 (by simpa using h)
  · have hb : ∀ p ∈ memBelow m a, p.1 ≠ x := fun p hp => by
      have : p.1 < a := by simpa using (List.mem_filter.mp hp).2
      omega
    rw [memByte, memWrite, List.append_assoc, sparseGet_append_of_not _ _ _ _ hb, sparseGet_append_of_not _ _ _ _ hc]
    exact sparseGet_filter (fun c => decide (a + bs.length ≤ c)) m x 0 (by simpa using h)

/-- A byte outside a cleared range reads as before, one inside it reads 0. -/
theorem memByte_memZero (m : List (Nat × Byte)) (a n x : Nat) :
    memByte (memZero m a n) x = if a ≤ x ∧ x < a + n then 0 else memByte m x := by
  split
  · next h =>
    have hz := sparseGet_append_of_not (memZero m a n) [] x (0 : Byte) fun p hp e => by
      have := (List.mem_filter.mp hp).2
      simp [e, h.1, h.2] at this
    simpa [memByte, sparseGet] using hz
  · next h =>
    exact sparseGet_filter (fun c => !(decide (a ≤ c) && decide (c < a + n))) m x 0 (by simp; omega)

/-- Entries moved to other keys rise where they rose. -/
theorem risingFrom_moved (l : List (Nat × Byte)) (a b lo : Nat) (h : risingFrom (a + lo) l = true) :
    risingFrom (b + lo) (l.map fun c => (b + (c.1 - a), c.2)) = true := by
  induction l generalizing lo with
  | nil => rfl
  | cons p t ih =>
    obtain ⟨k, w⟩ := p
    simp only [risingFrom, Bool.and_eq_true, decide_eq_true_eq, List.map_cons] at h ⊢
    refine ⟨by omega, ?_⟩
    have e : b + (k - a) + 1 = b + (k + 1 - a) := by omega
    rw [e]
    exact ih (k + 1 - a) (by rw [show a + (k + 1 - a) = k + 1 by omega]; exact h.2)

/-- Where the entries that a copy moves stand. -/
theorem moved_keys (m : List (Nat × Byte)) (a b n : Nat) (p : Nat × Byte)
    (hp : p ∈ (memBelow (memFrom m a) (a + n)).map fun c => (b + (c.1 - a), c.2)) :
    b ≤ p.1 ∧ p.1 < b + n ∧ ∃ c ∈ m, c.2 = p.2 := by
  obtain ⟨c, hc, rfl⟩ := List.mem_map.mp hp
  obtain ⟨hc, h2⟩ := List.mem_filter.mp hc
  obtain ⟨hc, h1⟩ := List.mem_filter.mp hc
  simp only [decide_eq_true_eq] at h1 h2
  exact ⟨by dsimp only; omega, by dsimp only; omega, c, hc, rfl⟩

/-- A copy keeps the canonical form of a byte memory. -/
theorem memWf_memCopy (m : List (Nat × Byte)) (a b n : Nat) (h : memWf m = true) : memWf (memCopy m a b n) = true := by
  have hb := sparseWf_filter (fun _ => (0 : Byte)) (fun c => decide (c.1 < b)) m h
  have hf := sparseWf_filter (fun _ => (0 : Byte)) (fun c => decide (b + n ≤ c.1)) m h
  simp only [memWf, sparseWf, Bool.and_eq_true, List.all_eq_true, decide_eq_true_eq] at h hb hf ⊢
  refine ⟨?_, fun p hp => ?_⟩
  · unfold memCopy
    refine risingFrom_append _ _ 0 (b + n) ?_ (fun p hp => ?_) (risingFrom_memFrom m 0 _ h.1) (Nat.zero_le _)
    · refine risingFrom_append _ _ 0 b hb.1 (fun p hp => ?_) ?_ (Nat.zero_le _)
      · simpa using (List.mem_filter.mp hp).2
      · exact risingFrom_moved _ a b 0 (risingFrom_filter _ _ a (risingFrom_memFrom m 0 a h.1))
    · rcases List.mem_append.mp hp with hp | hp
      · have : p.1 < b := by simpa using (List.mem_filter.mp hp).2
        omega
      · exact (moved_keys m a b n p hp).2.1
  · unfold memCopy at hp
    rcases List.mem_append.mp hp with hp | hp
    · rcases List.mem_append.mp hp with hp | hp
      · exact hb.2 p hp
      · obtain ⟨-, -, c, hc, e⟩ := moved_keys m a b n p hp
        exact e ▸ h.2 c hc
    · exact hf.2 p hp

/-- What an entry moved to another key reads as. -/
theorem sparseGet_moved (l : List (Nat × Byte)) (a b k : Nat) (h : ∀ p ∈ l, a ≤ p.1) :
    sparseGet (l.map fun c => (b + (c.1 - a), c.2)) (b + k) 0 = sparseGet l (a + k) 0 := by
  induction l with
  | nil => rfl
  | cons p t ih =>
    obtain ⟨j, w⟩ := p
    have hj := h (j, w) (List.mem_cons_self ..)
    simp only at hj
    simp only [List.map_cons, sparseGet, ih fun p hp => h p (List.mem_cons_of_mem _ hp)]
    by_cases e : j = a + k
    · rw [if_pos e, if_pos (by omega)]
    · rw [if_neg e, if_neg (by omega)]

/-- A byte that a copy covers reads as the byte copied. -/
theorem memByte_memCopy_in (m : List (Nat × Byte)) (a b n k : Nat) (h : k < n) : memByte (memCopy m a b n) (b + k) = memByte m (a + k) := by
  have hf : ∀ p ∈ memFrom m (b + n), p.1 ≠ b + k := fun p hp => by
    have : b + n ≤ p.1 := by simpa using (List.mem_filter.mp hp).2
    omega
  have hb : ∀ p ∈ memBelow m b, p.1 ≠ b + k := fun p hp => by
    have : p.1 < b := by simpa using (List.mem_filter.mp hp).2
    omega
  have ha : ∀ p ∈ memBelow (memFrom m a) (a + n), a ≤ p.1 := fun p hp => by
    simpa using (List.mem_filter.mp (List.mem_filter.mp hp).1).2
  rw [memByte, memCopy, sparseGet_append_left _ _ _ _ hf, sparseGet_append_of_not _ _ _ _ hb, sparseGet_moved _ _ _ _ ha, memByte, memBelow,
    sparseGet_filter (fun c => decide (c < a + n)) _ _ _ (by simpa using h), memFrom,
    sparseGet_filter (fun c => decide (a ≤ c)) _ _ _ (by simp)]

/-- A copy leaves every byte outside its destination alone. -/
theorem memByte_memCopy_out (m : List (Nat × Byte)) (a b n x : Nat) (h : x < b ∨ b + n ≤ x) : memByte (memCopy m a b n) x = memByte m x := by
  have hc : ∀ p ∈ (memBelow (memFrom m a) (a + n)).map (fun c => (b + (c.1 - a), c.2)), p.1 ≠ x := fun p hp => by
    have := moved_keys m a b n p hp; omega
  rcases h with h | h
  · have hf : ∀ p ∈ memFrom m (b + n), p.1 ≠ x := fun p hp => by
      have : b + n ≤ p.1 := by simpa using (List.mem_filter.mp hp).2
      omega
    rw [memByte, memCopy, sparseGet_append_left _ _ _ _ hf, sparseGet_append_left _ _ _ _ hc]
    exact sparseGet_filter (fun c => decide (c < b)) m x 0 (by simpa using h)
  · have hb : ∀ p ∈ memBelow m b, p.1 ≠ x := fun p hp => by
      have : p.1 < b := by simpa using (List.mem_filter.mp hp).2
      omega
    rw [memByte, memCopy, List.append_assoc, sparseGet_append_of_not _ _ _ _ hb, sparseGet_append_of_not _ _ _ _ hc]
    exact sparseGet_filter (fun c => decide (b + n ≤ c)) m x 0 (by simpa using h)

end Sys2Proof.Laws
end

