-- ==== Sys2Proof/Laws/Memory.lean ====
section
/-! SUPPORT. Device memory: every store keeps the canonical form of the memory, and what a byte reads after a store (R481, R510). -/

namespace Sys2Proof.Laws
open Sys2Proof Sys2Proof.Machine

theorem hbmDiff_length (e : Option Nat) (a : Nat) (bs : List Byte) : (hbmDiff e a bs).length = bs.length := by
  cases e <;> simp [hbmDiff]

/-- What a byte of HBM is kept as gives it back. -/
theorem hbmDiff_hbmDiff (e : Option Nat) (a : Nat) (bs : List Byte) : hbmDiff e a (hbmDiff e a bs) = bs := by
  cases e with
  | none => rfl
  | some n =>
    apply List.ext_getElem
    · simp [hbmDiff]
    · intro i h1 h2
      simp [hbmDiff]

/-- The same, for one byte of a run. -/
theorem hbmDiff_getElem (e : Option Nat) (a k : Nat) (bs : List Byte) (h : k < (hbmDiff e a bs).length) (h' : k < bs.length) :
    (hbmDiff e (a + k) [(hbmDiff e a bs)[k]]).headD 0 = bs[k] := by
  cases e with
  | none => rfl
  | some n => simp [hbmDiff]

/-- A store to scratch keeps the canonical form. -/
theorem memWf_writeParts (c : Scratch) (ps : List (Nat × Nat)) (m : List Host.Cell) (bs : List Byte) (h : memWf m = true) :
    memWf (c.writeParts m ps bs) = true := by
  induction ps generalizing m bs with
  | nil => exact h
  | cons p ps ih =>
    refine ih _ _ ?_
    suffices ∀ (l : List Nat) (m : List Host.Cell), memWf m = true →
        memWf (l.foldl (fun m q => memWrite m (cellKey q (scrByte p.1)) (bs.take p.2)) m) = true from this _ _ h
    intro l
    induction l with
    | nil => exact fun m hm => hm
    | cons q l ih => exact fun m hm => ih _ (memWf_memWrite _ _ _ hm)

/-- Every store to device memory keeps the canonical form. -/
theorem memWf_writeMem (s : State) (a : Nat) (bs : List Byte) (h : memWf s.mem = true) : memWf (s.writeMem a bs).mem = true := by
  have h1 : memWf (if min bs.length (scratchBase - a) = 0 then s.mem
      else memWrite s.mem a (hbmDiff s.hbm.era a (bs.take (min bs.length (scratchBase - a))))) = true := by
    split
    · exact h
    · exact memWf_memWrite _ _ _ h
  show memWf (s.stored a bs) = true
  simp only [State.stored]
  split
  · exact h1
  · exact memWf_writeParts _ _ _ _ h1

/-- A store within HBM, as the memory lists it. -/
theorem stored_hbm (s : State) (a : Nat) (bs : List Byte) (h : a + bs.length ≤ scratchBase) (hb : bs ≠ []) :
    s.stored a bs = memWrite s.mem a (hbmDiff s.hbm.era a bs) := by
  have hl : 0 < bs.length := List.length_pos_iff.mpr hb
  have hk : min bs.length (scratchBase - a) = bs.length := by omega
  have h0 : bs.length ≠ 0 := by omega
  simp [State.stored, hk, h0]

/-- A byte of HBM reads what a store to it has brought. -/
theorem devByte_writeMem_in (s : State) (a k : Nat) (bs : List Byte) (h : a + bs.length ≤ scratchBase) (hk : k < bs.length) :
    (s.writeMem a bs).devByte (a + k) = bs[k] := by
  have hb : bs ≠ [] := fun e => by simp [e] at hk
  have hk' : k < (hbmDiff s.hbm.era a bs).length := by rw [hbmDiff_length]; exact hk
  have hx : a + k < scratchBase := by omega
  simp only [State.devByte, writeMem_mem, writeMem_hbm, stored_hbm s a bs h hb, if_pos hx]
  rw [memByte_memWrite_in _ _ _ _ hk', hbmDiff_getElem]

/-- A store within HBM changes no byte outside it. -/
theorem devByte_writeMem_out (s : State) (a x : Nat) (bs : List Byte) (h : a + bs.length ≤ scratchBase) (hx : x < a ∨ a + bs.length ≤ x) :
    (s.writeMem a bs).devByte x = s.devByte x := by
  by_cases hb : bs = []
  · subst hb
    simp [State.devByte, State.stored, Scratch.rewritten, Scratch.readBank, Scratch.retiringOf]
  · have hl : (hbmDiff s.hbm.era a bs).length = bs.length := hbmDiff_length _ _ _
    have hc : ∀ p o, memByte (memWrite s.mem a (hbmDiff s.hbm.era a bs)) (cellKey p o) = memByte s.mem (cellKey p o) := fun p o =>
      memByte_memWrite_out _ _ _ _ (.inr (by rw [hl]; simp only [cellKey]; omega))
    simp only [State.devByte, writeMem_mem, writeMem_hbm, writeMem_scr, stored_hbm s a bs h hb]
    rw [memByte_memWrite_out _ _ _ _ (by rw [hl]; exact hx)]
    split
    · rfl
    · split
      · rw [hc]; rfl
      · rfl

end Sys2Proof.Laws
end

