-- ==== Sys2Proof/WellFormed.lean ====
section
/-! DEFINITION. Which commands are well formed: their operands have the sizes and ranges that the spec gives them. Every meaning is total; an
ill-formed command is one that no sender of the spec can send. -/

namespace Sys2Proof

/-- An access of `n` bytes lies in BAR0, which is 16 MiB (R22, R24). -/
def barAccess (a n : Nat) : Bool := decide (1 ≤ n) && decide (a + n ≤ 2 ^ 24)

/-- Device addresses of HBM, and scratch addresses (R481, R511). -/
def hbmAddr (a : Nat) : Bool := decide (a < 0xC00000000)
def scrAddr (a : Nat) : Bool := decide (a < 0x2000000)

/-- Physical tiles 0 to 33, columns of a slot, rows 0 to 4, words and columns of a line, scratch addresses and masters (R136, R191, R194, R511,
R513). -/
def LineEnv.wf (e : LineEnv) : Bool :=
  e.tileErr.all (fun t => decide (t.1 < 34) && decide (t.2.1 < 2048)) &&
  e.composePoison.all hbmAddr && e.leadWritePoison.all hbmAddr && e.glyphUncorr.all scrAddr &&
  e.leadReadPoison.all (fun u => decide (u < 256)) &&
  e.delayUncorr.all (fun w => decide (w.1 < 5) && decide (w.2 < 8192)) &&
  e.beamUncorr.all (fun b => decide (b.1 < 5) && decide (b.2 < 65536)) &&
  e.corrected.all scrAddr && e.conflicts.all (fun m => decide (m < 8)) &&
  (e.unsent.getD []).all (fun u => decide (u.1 < 5) && decide (u.2 < 16)) &&
  e.activates.all (fun a => decide (a.1 < 32) && decide (a.2.1 < 2))

/-- Addresses, masters and vault words that what the memories report of a command names. -/
def MemFault.wf : MemFault → Bool
  | .poisoned a _ => hbmAddr a
  | .uncorrectable a => scrAddr a
  | .writeLost a _ => scrAddr a
  | .keyUncorrectable w => decide (w < 32768)
def MemRep.wf (r : MemRep) : Bool := r.faults.all (·.wf) && r.single.all scrAddr && r.lost.all fun m => decide (m < 8)

/-- Device addresses and lengths of a compressor request (R111). -/
def CmpReq.wf (r : CmpReq) : Bool := decide (r.src < 2 ^ 36) && decide (r.dst < 2 ^ 36) && decide (r.srcLen < 2 ^ 32) && decide (r.dstLen < 2 ^ 32)

/-- A BAR2 access has at least one byte. -/
def Bar2Op.size : Bar2Op → Nat
  | .read n => n
  | .write bs => bs.length

/-- A command is well formed. -/
def Instr.wf : Instr → Bool
  | .registerWrite a data _ => barAccess a.toNat data.length
  | .readClear a enables => barAccess a.toNat enables.length && enables.contains true
  | .lineEvent env => env.wf
  | .triggerEdge _ _ env => env.wf
  | .replayPacer env => env.wf
  | .postcard body => body.length == 32
  | .echo _ m => m.length == 32
  | .health m => m.length == 32
  | .zone m _ => m.length == 32
  | .link m => m.length == 32
  | .strayReturnMessage m => m.length == 32
  | .rxCodeword _ levels _ => levels.length == 2720
  | .hello _ _ content => content.length == 640
  | .peerDataCodeword _ _ content => content.length == 640
  | .verdictMessage _ body => body.length == 16
  | .mark _ body => body.length == 16
  | .peerCountersign body _ => body.length == 16
  | .tallyMessage record mem => record.length == 32 && mem.wf
  | .letterFragment _ _ body mem => decide (9 ≤ body.length) && decide (body.length ≤ 624) && mem.wf
  | .ethRxFrame frame _ _ => decide (14 ≤ frame.length)
  | .sampleFrame results => results.length == 16
  | .parityReplay _ _ recent requests => decide (recent ≤ 64) && requests.all fun r => hbmAddr r.2
  | .bar2Access o op mem => decide (1 ≤ op.size) && decide (o.toNat + op.size ≤ 2 ^ 36) && mem.wf
  | .descFetch _ descriptor _ => descriptor.length == 32
  | .descWriteback _ _ rep => rep.mem.wf
  | .letterArrival _ mem => mem.wf
  | .decodeDone _ mem => mem.wf
  | .cmpTake _ album mem => album.all (·.wf) && mem.wf
  | .jobOpen _ mem => mem.wf
  | .postingTable _ mem => mem.wf
  | .frankDef _ mem => mem.wf
  | .jobClose _ mem => mem.wf
  | .fence _ mem => mem.wf
  | .countersignBatch _ _ mem => mem.wf
  | .cmpDone _ _ mem => mem.wf
  | .chkScanDone _ mem => mem.wf
  | .albumScrubDone mem => mem.wf
  | .ledgerWrite _ mem => mem.wf
  | .segmentExport mem => mem.wf
  | .stop _ folded => decide (folded < 2 ^ 36)
  | .unmapped _ _ | .irqRawClear _ _ | .holdoffExpiry _ | .commitGroup _ _ _ | .mailResume | .decoderTake _
  | .directBufferRoom _ | .stamp _ | .direct _ | .enclosure _ | .glyphSet _ | .mailGo _ _ | .mailAbort _ _ | .decisionEdge | .overlapCombine
  | .overlapDeadline | .echoSettle | .verdict | .rejectRecordDone | .keepalive | .countersignTake _ | .encoderEdge _ _ | .encIndex
  | .loopSample | .postcardSend | .coasting | .stopped | .pressRunFall | .pressRunRise | .clear | .timeline | .laneLock _ | .laneLost _
  | .swapTimeout _ | .lcmdStart _ | .lcmdStop _ | .gstart _ | .cdrLock _ _ | .blindSettleDone _ | .trainingFrame _ _ _ _ | .rxReady _
  | .holdDone _ | .trainFail _ _ | .esStart _ | .esDone _ _ _ | .helloSend _ | .peerRetry _ | .peerLost _ | .timeWrap | .beyondClear
  | .slewDone | .snap | .endSession | .masterLost | .ethTxFrame | .txtsTagRead | .ethLinkChange _ | .zoneSample | .zoneHold | .zoneSafe
  | .zoneStart _ _ _ | .zoneStop _ _ | .restart _ _ _ | .move _ | .home _ | .relative _ | .axisStep _ | .axisStop _ | .limitTrip _ _ _ _
  | .limitClear _ _ _ _ _ | .splice | .spliceNRise | .hbmRefresh _ | .hbmTempRead _ _ | .sweepStart _ | .sweepDone _ | .rateDone | .repair
  | .repairDone _ | .eccCorrected _ | .retireCmd _ | .retireThreshold _ | .retired _ | .keyLoad _ | .keyErase _ | .vaultWindowAccess _ _
  | .wipeCmd | .wiped | .doorbell _ | .ringResume _ | .cqRoom _ _ | .paceRequest _ | .softReq _ | .linkDown | .poisoned | .flr
  | .cmpStart _ | .fresh _ | .continue _ | .test _ | .chkTestDone _ _ | .albumScrubStart
  | .runWrite _ _ _ | .substWrite _ | .ledgerOverrun _ | .tallySplit | .segmentClose
  | .segmentPacked _ | .digest | .replayStart | .replayEnd | .powerIdle | .wake _ | .powerOff | .powerOn _ | .perst
  | .core | .block _ | .pllUnlock _ | .pllRelock _ | .lifeReq _ _ | .transition _ | .tamper _ | .tamperClear | .pcieLinkUp _ _
  | .msixTableAccess _ _ | .configAccess _ | .dirRest _ | .writeDrainAge _ _ | .tapReset => true
  | .jtagInstruction op => match op with
    | .samplePreload pins load | .extest pins load => pins.length == 37 && load.length == 37
    | _ => true

end Sys2Proof
end

