-- ==== Sys2Proof/Tests/Slice0.lean ====
section
/-! SUPPORT. Small tests: ill-formed commands that the checks of WellFormed refuse, states that meet the hypotheses of the statements of
Certificates/Slice0/Obligations.lean (witness_<statement>), and steps whose result the spec states. -/

namespace Sys2Proof.Tests
set_option Elab.async false
open Sys2Proof.Machine


/-- The state that a command leaves, or the state it found where it stops. -/
def nx (c : Instr) (s : State) : State :=
  match exec c s with
  | .next t => t
  | _ => s

/-- A state with CTRL.EN of a page at 1. -/
def on (s : State) (p : Nat) : State := s.setReg (CTRL p) (s.reg (CTRL p) ||| 1)

/-- The state after reset. -/
def r0 : State := State.reset

theorem witness_StepRunsFront :
    (({ r0 with pending := [.snap] } : State).pending = .snap :: []) := by decide +kernel

theorem witness_QueueUntouched : exec .snap r0 = .next (nx .snap r0) := rfl

theorem witness_EveryCommandAnswers_jtag : ∀ code, Instr.snap ≠ .jtagInstruction (.otherTest code) := by intro code h; cases h

theorem witness_EveryCommandAnswers :
    (r0.power.st ≠ 4 ∧ r0.life.st = 1) ∧
    (({ r0 with life := { st := 2 } } : State).life.st = 2) := by decide +kernel

theorem witness_LevelsFollowPages : step r0 = .next r0.tick ∧ r0.tick.power.st ≠ 4 := ⟨rfl, by decide +kernel⟩

def wMasked : State := { r0 with irq := { table := List.replicate 64 { masked := false } } }

theorem witness_MessagesOfSources :
    (r0.power.st ≠ 4 ∧ ∀ n : Fin 60, r0.levelOf n.val = true → r0.irq.level.getD n.val false = true) ∧
    (keyGet r0.irq.holdoff 3 = none ∧ bits (r0.reg (CHIP.IRQ_ROUTE 3)) 27 16 = 0 ∧ (r0.irq.table.getD 3 {}).masked = true) ∧
    (keyGet wMasked.irq.holdoff 3 = none ∧ bits (wMasked.reg (CHIP.IRQ_ROUTE 3)) 27 16 = 0 ∧ (wMasked.irq.table.getD 3 {}).masked = false) ∧
    (keyGet [(59, false)] 59 = some false) := by decide +kernel

def wOff : State := { r0 with power := { st := 4 } }

theorem witness_PowerStates_off : (∀ a, Instr.snap ≠ .powerOn a) ∧ (∀ l, Instr.snap ≠ .tamper l) ∧ exec .snap wOff = .next wOff :=
  ⟨fun _ h => (by cases h), fun _ h => (by cases h), rfl⟩

def wQuiet : State := { (on (r0.setReg PWR.LTR 60) pPWR) with chk := {} }

def wDoze : State := { r0 with power := { st := 2 }, hbm := { low := 1 } }

theorem witness_PowerStates :
    (wQuiet.power.st = 1 ∧ wQuiet.power.napped = [] ∧ wQuiet.quiet = true ∧ wQuiet.enabled pPWR = true ∧ 60 ≤ wQuiet.ltr ∧ wQuiet.ltr < 1500 ∧ wQuiet.hbm.rateBusy = false) ∧
    (wDoze.power.st = 2 ∧ wDoze.power.napped = [] ∧ wDoze.mustWrite = false ∧ wDoze.hbm.rateBusy = false ∧ wDoze.hbm.low = 1) ∧
    (r0.power.st = 1 ∧ r0.power.st ≠ 4 ∧ r0.power.napped = [] ∧ r0.mustWrite = false) := by decide +kernel

def wStopped : State := { r0 with power := { r0.power with stopped := [4] } }

def wJob : State := { r0 with slots := { st := .writing } :: List.replicate 3 {}, power := { st := 0 }, mem := [(0xC00000010, 7)] }

theorem witness_Resets :
    (r0.power.st ≠ 4 ∧ r0.power.st ≠ 0 ∧ wJob.scr.retiring = none) ∧
    (wStopped.power.stopped.contains 4 = true ∧ wStopped.power.stopped.contains 6 = false ∧ wStopped.time.requests = []) ∧
    (blockPages.contains 21 = true ∧ r0.enabled 21 = false) ∧
    (blockPages.contains 8 = false ∧ wJob.power.st = 0) := by decide +kernel

def wField (n : Nat) : State := { r0 with life := { st := 2, wrongCodes := n } }

def wCode : State := { (wField 0) with life := { st := 2, codes := (List.range 4).map fun i => BitVec.ofNat 32 (fld (wField 0).returnCode (4 * i) 4) } }

def wGoing : State := { r0 with life := { target := some 2 } }

theorem witness_LifeCycle :
    ((0xC2 : Byte).toNat ≠ 0xC3 ∧ (0xC3 : Byte).toNat = 0xC3) ∧
    (¬ ((r0.life.st = 1 ∧ (3 : BitVec 3) = 2) ∨ (r0.life.st = 2 ∧ (3 : BitVec 3) = 3) ∨ (r0.life.st < 4 ∧ (3 : BitVec 3) = 4))) ∧
    (wJob.life.st = 1 ∧ wJob.power.st = 0 ∧ ¬ ((2 : BitVec 3) = 3 ∧ 3 ≤ wJob.life.wrongCodes)) ∧
    ((wField 3).life.st = 2 ∧ (wField 3).power.st < 2 ∧ 3 ≤ (wField 3).life.wrongCodes) ∧
    ((wField 2).life.st = 2 ∧ (wField 2).life.wrongCodes < 3 ∧ (wField 2).codeBytes ≠ (wField 2).returnCode) ∧
    (wCode.codeBytes = wCode.returnCode ∧ wCode.life.wrongCodes < 3 ∧ wCode.life.target = none) ∧
    (wGoing.life.target = some 2 ∧ (2 : Nat) ≠ 4 ∧ r0.life.target = none) ∧
    (({ r0 with life := { target := some 4 } } : State).life.target = some 4 ∧ ({ r0 with life := { target := some 4 } } : State).lanes.lane.length = 25) := by decide +kernel

def wTamper : State := { r0 with life := { tamperEn := true } }

def wDiffers : State := { wTamper with life := { tamperEn := true, mismatch := true } }

theorem witness_TamperAndTap :
    (wTamper.power.st ≠ 4 ∧ wTamper.life.tamperEn = true ∧ r0.life.tamperEn = false ∧ (true == bit (lfsrNext wTamper.life.lfsr) 0) = !(false == bit (lfsrNext wTamper.life.lfsr) 0)) ∧
    (wDiffers.life.mismatch = true ∧ wDiffers.life.tamperEn = true ∧ wDiffers.power.st ≠ 4 ∧ ({ wDiffers with power := { st := 4 } } : State).power.st = 4) ∧
    (({ r0 with life := { unmatched := 0 } } : State).life.unmatched = 0 ∧ wTamper.life.unmatched ≠ 0 ∨ r0.life.unmatched = 0) ∧
    (({ r0 with life := { st := 0 } } : State).life.st = 0 ∧ r0.life.st ≠ 0 ∧ r0.vault.wiping = none ∧ (List.replicate 37 true).length = 37) := by decide +kernel

theorem witness_CommitZero :
    (r0.power.st ≠ 4 ∧ (0x1FF : Nat) < 2 ^ 32) := by decide +kernel

theorem witness_CommitOutcomes :
    (r0.power.st ≠ 4 ∧ (9 : Byte) ≠ 0 ∧ (7 : Fin 60).val ≠ 24 ∧ (r0.setReg (COMMIT 7) (putField (r0.reg (COMMIT 7)) 7 0 9)).agrees 7 9 = false) ∧
    ((2 : Byte) ≠ 0 ∧ ((r0.setReg (COMMIT 15) (putField (r0.reg (COMMIT 15)) 7 0 2)).agrees 15 2 = true) ∧ groupEvent 15 2 ≠ .none) ∧
    ((2 : Byte) ≠ 0 ∧ (23 : Fin 60).val ≠ 24 ∧ groupShadowed 23 2 = true ∧ (((r0.setReg (COMMIT 23) (putField (r0.reg (COMMIT 23)) 7 0 2)).setLate 23).agrees 23 2 = true) ∧ (r0.setReg (COMMIT 23) (putField (r0.reg (COMMIT 23)) 7 0 2)).agrees 23 2 = true) ∧
    (risingFrom 0 r0.act = true ∧ 1 ≤ r0.reg MAIL.BUDGET_TILE ∧ r0.reg MAIL.BUDGET_TILE ≤ 1250 ∧ 1 ≤ r0.reg MAIL.BUDGET_HBM ∧ r0.reg MAIL.BUDGET_HBM ≤ 1638400 ∧ 1 ≤ r0.reg MAIL.BUDGET_DEC ∧ r0.reg MAIL.BUDGET_DEC ≤ 32000) := by decide +kernel

/-- How host software reaches a register. -/
def accOf (a : Nat) : Option Access := (regDef? a).map fun d => d.1.acc

def wRepl : State := r0.setReg LEDGER.REPLAY_CTRL (2 ^ 31)

theorem witness_RegisterWrites :
    (r0.power.st ≠ 4 ∧ risingFrom 0 r0.regs = true ∧ accOf ETH.MAC_LO = some .rw ∧ accOf (STATUS 7) = some .w1c ∧ accOf 0x7000 = some .ro ∧ accOf TIME.SNAP = some .wo ∧ accOf HBM.CORR_READS = some .rc ∧ ETH.MAC_LO ≠ COMMIT 22 ∧ ETH.MAC_LO ≠ IRQ_RAW 22 ∧ pageOf ETH.MAC_LO = some 22 ∧ (r0.replaying && regWriteCovered ETH.MAC_LO) = false ∧ r0.bankLocked ETH.MAC_LO = false ∧ (wRepl.replaying && regWriteCovered (CTRL 12)) = true ∧ accOf (CTRL 12) = some .rw ∧ r0.bankLocked 0x17400 = true ∧ accOf 0x17400 = some .rw ∧ pageOf 0x17400 = some 23 ∧ (r0.replaying && regWriteCovered 0x17400) = false ∧ regDef? 0x16FFC = none ∧ pageOf 0x16FFC = some 22 ∧ (0x16FFC : Nat) % 4 = 0) := by decide +kernel

theorem witness_RegisterWrites_2 :
    (keyGet r0.heldBack PLACE.OFFSET = none ∧ r0.replaying = false ∧ (writeWords 0x16100 [some 1]).any (·.2.isNone) = true ∧ (writeWords 0xFFFFFF [some 1]).any (·.2.isNone) = true ∧ pageOf 0xFFFFFF = none) := by decide +kernel

def wLevel : State := settle r0 ((r0.setReg (IRQ_MASK 7) 0x84).setReg (IRQ_RAW 7) 0x84)

def wHold (b : Bool) : State := { wLevel with irq := { wLevel.irq with holdoff := [(7, b)] } }

theorem witness_HostReads :
    (r0.power.st ≠ 4 ∧ pageOf 0xFFFFFC = none) ∧
    (HBM.CORR_READS ≠ TILE.POSTINGS_PEAK ∧ HBM.CORR_READS ≠ SPLIT.LOG_PEAK ∧ accOf TILE.POSTINGS_PEAK = some .rc ∧ accOf SPLIT.LOG_PEAK = some .rc ∧ pageOf TILE.POSTINGS_PEAK = some 12 ∧ pageOf SPLIT.LOG_PEAK = some 14 ∧ TILE.POSTINGS_PEAK % 4 = 0 ∧ SPLIT.LOG_PEAK % 4 = 0 ∧ pageOf HBM.CORR_READS = some 7 ∧ HBM.CORR_READS % 4 = 0 ∧ ((regDef? HBM.CORR_READS).map fun d => decide (d.1.acc = .rc)) = some true) ∧
    (wLevel.power.st ≠ 4 ∧ wLevel.levelOf 7 = true ∧ (wLevel.reg (IRQ_RAW 7) &&& (3 : Word).toNat) = 0 ∧ (wLevel.reg (IRQ_RAW 7) &&& (0x80 : Word).toNat) ≠ 0 ∧ (wLevel.setReg (IRQ_RAW 7) 4).levelOf 7 = true ∧ (wLevel.setReg (IRQ_RAW 7) 0).levelOf 7 = false) ∧
    (keyGet r0.irq.holdoff 7 = none ∧ keyGet (wHold true).irq.holdoff 7 = some true ∧ (wHold true).levelOf 7 = true ∧ keyGet (wHold false).irq.holdoff 7 = some false) := by decide +kernel

theorem witness_TimeSnapshot :
    (r0.power.st ≠ 4 ∧ risingFrom 0 r0.regs = true ∧ r0.time.epoch < 2 ^ 32 ∧ r0.time.ns < 2 ^ 32 ∧ r0.time.frac < 2 ^ 32) := by decide +kernel

def wTime (lo hi step : Nat) : State := ((on r0 pTIME).setReg TIME.CORR_LO lo).setReg TIME.CORR_HI hi |>.setReg TIME.CORR_MODE step

def wSession : State := { (wTime 5 0 1) with time := { sessionOpen := true, ns := 7 } }

theorem witness_LocalTimeMoves :
    (r0.power.stopped.contains 4 = false ∧ r0.slewLo ≤ 0 ∧ 0 ≤ r0.slewHi ∧ risingFrom 0 r0.act = true ∧ r0.power.st ≠ 4) ∧
    (r0.enabled pTIME = false) ∧
    ((wTime 0 0 0).enabled pTIME = true ∧ sInt 64 ((wTime 0 0 0).reg TIME.CORR_LO + (wTime 0 0 0).reg TIME.CORR_HI * 2 ^ 32) = 0) ∧
    (wSession.enabled pTIME = true ∧ bit (wSession.reg TIME.CORR_MODE) 0 = true ∧ 0 < sInt 64 (wSession.reg TIME.CORR_LO + wSession.reg TIME.CORR_HI * 2 ^ 32) ∧ wSession.time.sessionOpen = true ∧ wSession.time.stepUsed = false ∧ (∀ x ∈ wSession.slots, x.st = .empty) ∧ bit (wSession.reg WEB.PC_CFG) 25 = false) ∧
    ((wTime 0xFFFFFFFF 0xFFFFFFFF 1).enabled pTIME = true ∧ sInt 64 ((wTime 0xFFFFFFFF 0xFFFFFFFF 1).reg TIME.CORR_LO + (wTime 0xFFFFFFFF 0xFFFFFFFF 1).reg TIME.CORR_HI * 2 ^ 32) = -1) ∧
    (wStopped.power.stopped.contains 4 = true ∧ (on wStopped pTIME).enabled pTIME = true) := by decide +kernel

def wRem (v : Int) (b : Bool) : State := { r0 with time := { rem := v, beyond := b, sessionOpen := true } }

theorem witness_TimeEvents :
    (wStopped.power.stopped.contains 4 = true ∧ r0.power.st ≠ 4 ∧ r0.power.stopped.contains 4 = false ∧ r0.time.ns < 2 ^ 32 ∧ r0.time.frac < 2 ^ 32 ∧ 0 < r0.timeInc ∧ 0 ≤ r0.slewHi ∧ r0.time.rem = 0 ∧ r0.time.beyond = false ∧ r0.time.requests = []) ∧
    ((0 ≤ (wRem 70 false).time.rem ∧ 0 < (wRem 70 false).slewHi) ∧ ((wRem (-70) false).time.rem < 0 ∧ (wRem (-70) false).slewLo < 0)) ∧
    ((wRem (2 ^ 58) true).time.beyond = true ∧ (wRem 1 true).slewLo < 0 ∧ 0 < (wRem 1 true).slewHi) ∧
    ((wRem 1 false).time.sessionOpen = true ∧ (wRem 1 false).time.beyond = false ∧ (wRem 1 true).time.beyond = true ∧ r0.time.sessionOpen = false) := by decide +kernel

def wTrained : State := { r0 with lanes := { r0.lanes with lane := List.replicate 24 {} ++ [{ tstate := 6 }] } }

def syncF : List Byte := List.replicate 12 0xFF ++ [0x88, 0xF7, 0, 2] ++ List.replicate 44 0

def wMac : State := { (on r0 pETH) with eth := { link := 2 } }

/-- A broadcast frame of an EtherType. -/
def bcast (a b : Byte) : List Byte := List.replicate 12 0xFF ++ [a, b, 3, 1] ++ List.replicate 44 0

def wRx : State := { (wMac.setReg ETH.RX_RING 0x80000001) with dma := { ring := {} :: { taken := [{ index := 2, bytes := leBytes 4 (2 ^ 31) ++ leBytes 4 2048 ++ List.replicate 24 0, bind := 4 }] } :: List.replicate 30 {} } }

def wTx (flag n : Nat) : State := { wMac with eth := { link := 2, txQueue := [leBytes 2 2 ++ leBytes 1 flag ++ leBytes 1 0 ++ leBytes 2 9 ++ List.replicate 10 0 ++ [0xAA, 0xBB, 0xCC]], txts := List.replicate n { ns := 0, frac := 0, epoch := 0, tag := 5 } } }

theorem witness_EthernetFrames :
    ((r0.laneOf 24).tstate ≠ 6 ∧ r0.power.st < 2 ∧ (wTrained.laneOf 24).tstate = 6 ∧ risingFrom 0 wTrained.regs = true ∧ r0.power.st ≠ 4 ∧ r0.macOn = false ∧ wMac.macOn = true ∧ isSync (bcast 8 8) (bits (wMac.reg TIME.MASTER_CFG) 7 0) = false ∧ wMac.addressed (bcast 8 8) = true ∧ isPostcardFrame (bcast 8 8) = false ∧ bit (wMac.reg ETH.RX_RING) 31 = false ∧ wMac.addressed ((bcast 8 8).set 0 2) = false) ∧
    ((on wMac pTIME).macOn = true ∧ isSync syncF (bits ((on wMac pTIME).reg TIME.MASTER_CFG) 7 0) = true ∧ (on wMac pTIME).enabled pTIME = true ∧ (on wMac pTIME).time.sessionOpen = false) ∧
    (isPostcardFrame (bcast 0x88 0xB5) = true ∧ wMac.addressed (bcast 0x88 0xB5) = true ∧ isSync (bcast 0x88 0xB5) (bits (wMac.reg TIME.MASTER_CFG) 7 0) = false) := by decide +kernel

theorem witness_EthernetFrames_2 :
    (bit (wRx.reg ETH.RX_RING) 31 = true ∧ bits (wRx.reg ETH.RX_RING) 4 0 = 1 ∧ wRx.macOn = true ∧ (wRx.dma.ring.getD 1 {}).stalled = none ∧ (wRx.dma.ring.getD 1 {}).taken.length = 1 ∧ (wRx.dma.ring.getD 1 {}).taken.all (fun d => d.bind == 4 && !d.fault && !d.poisoned && d.frame.isNone && decide (16 + 60 ≤ d.len)) = true ∧ (bcast 8 8).length = 60 ∧ bit (wRx.reg (RING.PACE 1)) 31 = false) ∧
    (r0.eth.txQueue = [] ∧ (wTx 0 0).macOn = true ∧ (wTx 0 0).eth.txQueue.length = 1 ∧ (wTx 1 63).eth.txts.length < 64 ∧ 64 ≤ (wTx 1 64).eth.txts.length) ∧
    (r0.eth.txts = [] ∧ (wTx 0 1).eth.txts.length = 1 ∧ r0.eth.link = 0 ∧ wMac.eth.link ≠ 0 ∧ wMac.eth.link ≠ (if false then 2 else 1)) := by decide +kernel

def wHost : State := on (on r0 pHOST) pHBM

def wBad : State := { wHost with scr := { r0.scr with bad := [1] } }

def wData : State := { wHost with mem := [(0x100, 9), (0xC00000008, 0x55), (0xC00000009, 0x66)] }

def wProt : State := (on wHost pSPLIT).setReg SPLIT.BEAM_LO 0x01000000

theorem witness_DeviceMemory :
    (wData.power.st ≠ 4 ∧ inScratch 0xC00000008 2 = true ∧ inHbm 0xC00000008 2 = false ∧ wData.badAt 0xC00000008 2 = [] ∧ wData.scr.bad = [] ∧ banksApart wData.scr = true ∧ mapped 0xC00000008 2 = true ∧ wBad.badAt 0xC00000008 2 = [8] ∧ wData.enabled pHOST = true ∧ wData.protects 0xC00000008 2 = false ∧ memWf wData.mem = true) ∧
    (wProt.protects (wProt.beamRegion.1) 4 = true ∧ inScratch wProt.beamRegion.1 4 = true ∧ inHbm wProt.beamRegion.1 4 = false ∧ wProt.enabled pHOST = true) ∧
    ((wData.waitingAt pSCR).length < 15 ∧ (∀ d ∈ wData.hbm.poisonDue, d.1 ≠ 8) ∧ inHbm 0x100 1 = true ∧ wData.hbm.waiting = [] ∧ wData.hbmServes 0x100 1 = true ∧ (on r0 pHOST).hbmServes 0x100 1 = false ∧ r0.enabled pHOST = false ∧ mapped 0xFFFFFFFFF 1 = false) := by decide +kernel

def wAct (t : ActTable) : State := { r0 with hbm := { tables := [(bankKey 3 1 2, t)] } }

def wFull : ActTable := (List.range 8).map fun i => (i, 9 - i)

def wHbm : State := { r0 with hbm := { tables := [(0, [(1, 1)]), (1536, [(2, 1)])], replays := [(31, 3)], writes := [(63, 40)], hot := [true, false] } }

def wSweep : State := { r0 with mem := [(0xFF, 1)], hbm := { sweep := some (0, 0x40010000, 0x100) } }

def wRate : State := { r0 with hbm := { rateBusy := true, low := 2 } }

def wRepair : State := { r0 with hbm := { repair := some 0x40000001 } }

def wLead : State := { r0 with slots := { st := .leading } :: List.replicate 3 {}, power := { st := 0 } }

theorem witness_HbmUpkeep :
    ((keyGet (wAct [(5, 3)]).hbm.tables (bankKey 3 1 2)).getD [] = [(5, 3)] ∧ 3 + 1 < bits ((wAct [(5, 3)]).active HBM.ACT_CFG) 31 16 ∧ wFull.length = 8 ∧ (wFull.map Prod.fst).Nodup ∧ (wFull.getD (minEntry wFull) (0, 0)).2 + 1 < bits (r0.active HBM.ACT_CFG) 31 16 ∧ bits (r0.active HBM.ACT_CFG) 31 16 ≤ 4095 + 1) ∧
    (wHbm.power.st ≠ 4 ∧ wHbm.hbm.temp.length = 2 ∧ wHbm.hbm.hot.length = 2 ∧ wHbm.hotLimit ≤ sInt 8 85 ∧ wHbm.hbm.hot.getD 1 false = false ∧ sInt 8 0xFF < wHbm.hotLimit - wHbm.hotHyst ∧ wHbm.hotLimit - wHbm.hotHyst ≤ sInt 8 84 ∧ sInt 8 84 < wHbm.hotLimit) ∧
    (keyGet wHbm.hbm.replays 31 = some 3 ∧ (keyGet wHbm.hbm.writes (31 * 2 + 0)).getD 0 = 0 ∧ keyGet wHbm.hbm.writes (31 * 2 + 1) = some 40) := by decide +kernel

theorem witness_HbmUpkeep_2 :
    (bit (0x7F : Word).toNat 31 = false ∧ bit (0x80000000 : Word).toNat 31 = true ∧ wLead.jobsActive = true ∧ wSweep.hbm.sweep.isSome = true ∧ wRate.hbm.rateBusy = true ∧ wRepair.hbm.repair.isSome = true ∧ (r0.setReg HBM.SWEEP_CTRL 0).sweepRefused 0 = false ∧ sweepCount (r0.reg HBM.SWEEP_RANGE) ≠ 0) ∧
    (r0.hbm.sweep = none ∧ wSweep.hbm.sweep = some (0, 0x40010000, 0x100) ∧ r0.hbm.rateBusy = false ∧ wRate.hbm.waiting = [] ∧ r0.hbm.repair = none ∧ r0.hbm.low ≠ 2 ∧ r0.jobsActive = false ∧ wRepair.hbm.repair = some 0x40000001 ∧ wRepair.hbm.waiting = []) := by decide +kernel

def wScr : State := on r0 pSCR

def wCopy : State := { wScr with scr := { state := List.replicate 64 0 ++ [2, 1, 1, 1], retiring := some { bank := 3, old := 3, reserve := 64 } } }

def wCopyBad : State := { wScr with scr := { retiring := some { bank := 3, old := 3, reserve := 64 }, copyPos := 9, bad := [3 * 65536 + 65535] } }

def wUsed : State := { wScr with scr := { state := List.replicate 68 0 } }

def wCorr : State := { wScr with scr := { corr := (List.replicate 68 0).set 63 0x40 } }

def wTally : State := r0.eccCorrected 1792

theorem witness_ScratchRetirement :
    (r0.enabled pSCR = false ∧ wScr.enabled pSCR = true ∧ wScr.scr.retiring = none ∧ wScr.scr.state.getD 64 0 = 1 ∧ (∀ q < 64, wScr.scr.state.getD q 0 ≠ 1) ∧ (∀ q < 68, wUsed.scr.state.getD q 0 ≠ 1) ∧ wUsed.scr.noReserve = [] ∧ wCopy.scr.retiring = some { bank := 3, old := 3, reserve := 64 } ∧ wCopy.scr.queue = [] ∧ wUsed.enabled pSCR = true ∧ memWf wCopy.mem = true ∧ banksApart wCopy.scr = true ∧ wCopy.scr.copyPos < 65536 ∧ wCopy.scr.bad = [] ∧ (wCopy.waitingAt pSCR).length < 16 ∧ wCopyBad.scr.retiring = some { bank := 3, old := 3, reserve := 64 } ∧ wCopyBad.scr.copyPos ≤ 65535 ∧ wCopyBad.scr.bad.contains (3 * 65536 + 65535) = true ∧ wCopy.scr.bad.contains (3 * 65536 + scrWord 24) = false) ∧
    (bit (wCorr.reg SCR.RETIRE_CFG) 31 = true ∧ max 1 (bits (wCorr.reg SCR.RETIRE_CFG) 15 0) ≤ wCorr.scr.corr.getD 63 0 ∧ wCorr.scr.serves 63 = some 63 ∧ wCorr.scr.corr.getD 0 0 < max 1 (bits (wCorr.reg SCR.RETIRE_CFG) 15 0)) := by decide +kernel

theorem witness_ScratchRetirement_2 :
    (r0.tally? E.ECC_CORRECTED 7 = none ∧ (wTally.tally? E.ECC_CORRECTED 7).isSome = true) := by decide +kernel

def wVault (a st : Nat) : State := { ((on r0 pVAULT).setReg VAULT.WIN_ADDR (2 ^ 31 + a)) with life := { st := st }, vault := { mem := [(0, 9), (0x400, 0x77)] } }

def wWipe : State := { r0 with vault := { mem := [(5, 1)], valid := 3, wiping := some 2 } }

theorem witness_VaultRules :
    ((wVault 0 1).power.st ≠ 4 ∧ (wVault 0 1).life.st ≠ 4 ∧ (wVault 0 4).life.st = 4 ∧ (wVault 0 4).vault.lockedRun = false ∧ (wVault 0 1).enabled pVAULT = true ∧ (wVault 0 1).vault.wiping = none) ∧
    ((wVault 0x400 1).vault.bad.contains (0x400 / 8) = false ∧ (wVault 0x400 1).vault.lockedRun = false ∧ (wVault 0x400 1).power.st < 2 ∧ 0x400 ≤ 4 * bits ((wVault 0x400 1).reg VAULT.WIN_ADDR) 17 2 ∧ (wVault 0x400 2).life.st = 2 ∧ 0x100 ≤ 4 * bits ((wVault 0x2FC 1).reg VAULT.WIN_ADDR) 17 2 ∧ 4 * bits ((wVault 0x2FC 1).reg VAULT.WIN_ADDR) 17 2 < 0x300) ∧
    (r0.vault.wiping = none ∧ wWipe.vault.wiping = some 2) := by decide +kernel

/-- A descriptor of 32 bytes: word 0, LEN, host address, device address. -/
def descBytes (w len : Nat) (host dev : Nat) : List Byte := leBytes 4 w ++ leBytes 4 len ++ leBytes 8 host ++ leBytes 8 dev ++ List.replicate 8 0

/-- Ring 31, of 4 descriptors, running. -/
def wRing (r : Ring) : State :=
  { ((on (on r0 pDMA) (pRING 31)).setActive (RING.SIZE 31) 4) with dma := { ring := List.replicate 31 {} ++ [r] } }

/-- Ring 31 paced on line 63, with requests pending and descriptors taken. -/
def wPaced (k : Nat) (ds : List Desc) : State := (wRing { pacePend := k, taken := ds }).setReg (RING.PACE 31) (2 ^ 31 + 63 * 2 ^ 16)

def dsc (b : Nat) : Desc := { index := 0, bytes := descBytes 0x80000000 64 0x1000 0x40, bind := 0, sent := 64 - 32 * b }

theorem witness_RingsAndPacing :
    (r0.power.st ≠ 4 ∧ r0.dma.ring.length = 32 ∧ r0.mayTake 0 = false ∧ (wRing {}).mayTake 31 = true ∧ bit (fld (descBytes 0x80000000 64 0x1000 0x40) 0 4) 31 = true ∧ bit (fld (descBytes 0 64 0x1000 0x40) 0 4) 31 = false ∧ ((wRing {}).ringOf 31).doorbell = false ∧ ((wRing { doorbell := true }).ringOf 31).doorbell = true ∧ (wRing { doorbell := true }).mayTake 31 = true) ∧
    (((wRing { waiting := true }).ringOf 31).waiting = true ∧ ((wRing { waiting := true }).ringOf 31).reading = false ∧ ((wRing {}).ringOf 31).waiting = false) ∧
    ((∀ n < 32, ¬ ((wPaced 0 []).paced n = true ∧ bits ((wPaced 0 []).reg (RING.PACE n)) 21 16 = 62)) ∧ ((wPaced 0 []).paced 31 = true ∧ bits ((wPaced 0 []).reg (RING.PACE 31)) 21 16 = 63) ∧ (∀ i < 31, ¬ ((wPaced 0 []).paced i = true)) ∧ ((wPaced 255 []).ringOf 31).pacePend = 255 ∧ ((wPaced 254 []).ringOf 31).pacePend ≠ 255 ∧ ((wPaced 0 [dsc 2]).ringOf 31).pacePend = 0 ∧ (∀ i < 31, ((wPaced 0 [dsc 2]).ringOf i).taken = []) ∧ ((wPaced 0 [dsc 2]).ringOf 31).taken = [dsc 2] ∧ (dsc 2).blocks = 0 ∧ (wPaced 0 [dsc 2]).dma.flightRead = [] ∧ (wPaced 0 [dsc 2]).dma.flightWrite = [] ∧ 0 < (dsc 2).left ∧ (dsc 0).left = 0) := by decide +kernel

def wDone (d : Desc) (cfg : Nat) : State := ((wRing { taken := [d] }).setActive (RING.CFG 31) cfg).setActive (DMA.CQ_SIZE 7) 4

def dfl (w : Nat) (fault : Bool) : Desc := { index := 1, bytes := descBytes (0x80000000 + w) 4 0x1000 0xC00000040, bind := 0, fault := fault, sent := 4 }

def wCq (head : Nat) : State := (wDone (dfl 0x20000000 false) (7 * 2 ^ 16 + 1)).setReg (DMA.CQ_HEAD 7) head |>.setReg (DMA.CQ_TAIL 7) 3

theorem witness_DescriptorsCompleted :
    ((r0.ringOf 0).taken = [] ∧ (r0.ringOf 0).stalled = none ∧ ((wRing { stalled := some ([], {}) }).ringOf 31).stalled.isSome = true ∧ ((wDone (dfl 0x40000000 false) 0).ringOf 31).taken = [dfl 0x40000000 false] ∧ (dfl 0 false).len ≠ 0 ∧ (dfl 0 false).left = 0 ∧ (dfl 0 false).poisoned = false ∧ (dfl 0 false).bind = 0 ∧ (dfl 0 false).frame = none ∧ (dfl 0 false).blocks = 0 ∧ (wDone (dfl 0 false) 0).scr.bad = [] ∧ memWf (wDone (dfl 0 false) 0).mem = true ∧ banksApart (wDone (dfl 0 false) 0).scr = true ∧ (wDone (dfl 0 false) 1).badAt 0xC00000040 4 = [] ∧ (wDone (dfl 0 false) 0).served (dfl 0 false).regions = true ∧ mapped (dfl 0 false).devAddr (dfl 0 false).len = true ∧ (wDone (dfl 0 false) 0).enabled pSPLIT = false ∧ (on (wDone (dfl 0 false) 0) pSPLIT).enabled pSPLIT = true ∧ bit (dfl 0 false).word0 29 = false ∧ bit ((wDone (dfl 0 false) 0).active (RING.CFG 31)) 0 = false ∧ bit ((wDone (dfl 0 false) 1).active (RING.CFG 31)) 0 = true) := by decide +kernel

theorem witness_DescriptorsCompleted_2 :
    (bit (dfl 0x20000000 false).word0 29 = true ∧ (wCq 3).cqOf 31 = 7 ∧ (wCq 3).cqSize 7 ≠ 0 ∧ (wCq 3).cqFull 7 = false ∧ (wCq 0).cqFull 7 = true ∧ (dfl 0 true).fault = true ∧ (∀ i < 32, (r0.ringOf i).stalled = none)) := by decide +kernel

def wReady : State := { r0 with power := { ready := true } }

def wLink : State := { (wRing { taken := [dfl 0 false], head := 3 }) with host := { link := 2 ^ 31 + 0x100005 } }

def wPba (b : Bool) : State := { r0 with irq := { r0.irq with pba := [63], table := List.replicate 64 { masked := b } } }

theorem witness_HostPortRules :
    (r0.power.ready = false ∧ wReady.power.ready = true ∧ r0.power.st ≠ 4 ∧ wLink.dma.ring.length = 32 ∧ bit wLink.host.link 31 = true ∧ bit r0.host.link 31 = false ∧ (wPba true).irq.table.length = 64 ∧ (wPba true).irq.pba.contains 63 = true ∧ (wPba true).irq.pba.contains 0 = false) := by decide +kernel

theorem witness_CheckPresets :
    (bits 0x00000000 31 28 = 0 ∧ bits 0x1FFFFFFF 31 28 = 1 ∧ bits 0x20000000 31 28 = 2 ∧ bits 0x3FFFFFFF 31 28 = 3 ∧ bits 0x40000000 31 28 = 4 ∧ bits 0x5FFFFFFF 31 28 = 5) := by decide +kernel

/-- Unit 8 set up to scan 130 bytes of scratch with CRC-16. -/
def wChk : State := { ((on (r0.setReg (CHK.CFG 8) 0x40100000) pCHK).setReg (CHK.ADDR_HI 8) 0xC).setReg (CHK.LEN 8) 130 with
  mem := [(0xC00000000, 0x31), (0xC00000081, 0x32)] }

def scn (cfg len : Nat) : Scan := { cfg := cfg, poly := 0, init := 0, xorOut := 0, addr := 0xC00000000, len := len, expect := 1, run := 0xFFFF }

def scnEq : Scan := { scn 0x40100004 2 with expect := crc (crcPreset 4) [0x31, 0] }

def wScanEq : State := wChk.setChk 8 fun c => { c with scan := some scnEq }

def wScan (cfg len : Nat) : State := wChk.setChk 8 fun c => { c with scan := some (scn cfg len) }

def wTest : State := r0.setChk 0 fun c => { c with testing := true }

def scr8 (fr : List (Nat × Nat)) (check : Nat) : ScrubRun := { unit := 8, slot := 1, job := 5, num := 4095, frames := fr, check := check }

def wStamp (r : Option ScrubRun) (q : Stamp) : State := { ((on r0 pCHK).setReg ALBUM.SCRUB (2 ^ 31 + 8 * 2 ^ 16)) with
  slots := [{}, { job := 5, st := .staged, stamps := [q] }, {}, {}], chk := { scrub := r } }

def stp : Stamp := { num := 4095, st := 2, w := 64, h := 1, frames := [], check := 0 }

/-- The stamp with one frame, which lies in HBM. -/
def stpF : Stamp := { stp with frames := [0], check := crc32c (List.replicate 64 0) }

def runF (check : Nat) : ScrubRun := scr8 [(0xC00000000, 64)] check

def wScrub (check : Nat) : State := { (wStamp (some (runF check)) stpF) with mem := [(0xC00000003, 9)] }

def okF : Nat := crc32c ([0, 0, 0, 9] ++ List.replicate 60 0)

def wAlbumOwn : State := { (wStamp none stp) with chk := { album := some 8 } }

theorem witness_CheckUnits :
    (wChk.power.st ≠ 4 ∧ risingFrom 0 wChk.regs = true ∧ wChk.chk.unit.length = 9 ∧ wChk.startRefused 8 = false ∧ (wScan 0x40100000 1).startRefused 8 = true ∧ r0.startRefused 8 = true ∧ r0.enabled pCHK = false ∧ (r0.chkOf 8).scan = none ∧ wChk.power.st < 2) := by decide +kernel

theorem witness_CheckUnits_2 :
    (((wScan 0x40100000 130).chkOf 8).scan = some (scn 0x40100000 130) ∧ bit (scn 0x40100000 130).cfg 2 = false ∧ ((wScan 0x40100004 0).chkOf 8).scan = some (scn 0x40100004 0) ∧ bit (scn 0x40100004 0).cfg 2 = true ∧ (wScan 0x40100000 130).badAt 0xC00000000 130 = [] ∧ bit (scnEq).cfg 2 = true ∧ (wScanEq.chkOf 8).scan = some scnEq ∧ crcResult scnEq.params (wScanEq.runAfter scnEq 2) = scnEq.expect ∧ scnEq.len ≠ 0 ∧ wScanEq.served [(scnEq.addr, scnEq.len)] = true ∧ failedRead (.uncorrectable 0x81) = some 0xC00000081 ∧ crcResult (scn 0x40100004 0).params ((wScan 0x40100004 0).runAfter (scn 0x40100004 0) 0) ≠ (scn 0x40100004 0).expect ∧ memWf wChk.mem = true ∧ 130 ≤ (scn 0x40100000 130).len ∧ (wScan 0x40100000 130).served [((scn 0x40100000 130).addr, 130)] = true ∧ (wScan 0x40100000 130).served [(0x40, 130)] = false) := by decide +kernel

theorem witness_CheckUnits_3 :
    (r0.power.st ≠ 4 ∧ r0.chkBusy 0 = false ∧ r0.unitUnavailable 0 = false ∧ wTest.chkBusy 0 = true ∧ (r0.chkOf 0).testing = false ∧ (wTest.chkOf 0).testing = true ∧ wTest.chk.failed.length = 9 ∧ (∀ u < 9, r0.chkBusy u = false) ∧ wTest.power.st < 2 ∧ r0.readyStamps = [] ∧ r0.chk.scrub = none) ∧
    (bit ((wStamp none stp).reg ALBUM.SCRUB) 31 = true ∧ (wStamp none stp).enabled pCHK = true ∧ (wStamp none stp).chk.scrub = none ∧ bits ((wStamp none stp).reg ALBUM.SCRUB) 19 16 = 8 ∧ (wStamp none stp).chkBusy 8 = false ∧ (wStamp none stp).chkFailed 8 = false ∧ (wStamp none stp).unitUnavailable 8 = false ∧ (wStamp none stp).nextStamp = some (1, 4095)) := by decide +kernel

theorem witness_CheckUnits_4 :
    ((wScrub 0).chk.scrub = some (runF 0) ∧ (runF 0).unit ≤ 8 ∧ (wScrub 0).served (runF 0).frames = true ∧ (wStamp (some (scr8 [(0, 64)] 0)) stpF).served (scr8 [(0, 64)] 0).frames = false ∧ (wScrub 0).scr.bad = [] ∧ failedRead (.uncorrectable 3) = some 0xC00000003 ∧ (runF 0).frames ≠ [] ∧ crc32c ((runF okF).frames.map fun r => (wScrub okF).readMem r.1 r.2).flatten = (runF okF).check ∧ crc32c ((runF 0).frames.map fun r => (wScrub 0).readMem r.1 r.2).flatten ≠ (runF 0).check ∧ (wScrub 0).scrubStamp (runF 0) = some stpF ∧ (wScrub 0).slots.length = 4) ∧
    ((wStamp (some (runF 0)) stp).chkBusy 8 = true ∧ (wStamp (some (runF 0)) stp).albumOwns 8 = true ∧ (wStamp none stp).chkBusy 8 = false ∧ wAlbumOwn.albumOwns 8 = true ∧ wAlbumOwn.chkBusy 8 = false ∧ bit (wTest.reg CHK.SUBST) 31 = false ∧ bit (0x80000000 : Word).toNat 31 = true ∧ wTest.chkBusy (bits (0x80000000 : Word).toNat 2 0) = true ∧ bit (7 : Word).toNat 31 = false) := by decide +kernel

def wCmp (run : Option CmpJob) (waits : Bool) : State := { (on r0 pCMP) with cmp := [{}, { run := run, waits := waits }], mem := [(0xC00000040, 7), (0xC00000041, 7)] }

def cjob (n len : Nat) : CmpJob := { client := 4, req := { src := 0xC00000040, srcLen := n, dst := 0xC00000000, dstLen := len, param := 0xC0000001 }, data := List.replicate n 7 }

/-- A request in HBM. -/
def creq : CmpReq := { src := 0xC00000080, srcLen := 2, dst := 0x80, dstLen := 64, param := 0xC0000001 }

theorem witness_CompressorJobs :
    (r0.power.st ≠ 4 ∧ r0.cmp.length = 2 ∧ r0.registerJob 0 = false ∧ (wCmp none true).registerJob 1 = true ∧ r0.enabled pCMP = false ∧ (wCmp (some (cjob 2 128)) false).enabled pCMP = true ∧ ((wCmp (some (cjob 2 128)) false).cmpOf 1).run.isSome = true ∧ (wCmp none false).cmpNext 1 none = none ∧ ((wCmp none true).cmpOf 1).run = none ∧ ((wCmp none true).cmpNext 1 none).map (·.1) = some 4 ∧ (wCmp none true).cmpNext 1 (some creq) = some (2, creq) ∧ (wCmp none true).ringJob 1 = none ∧ ((wCmp none true).registerReq 1).isSome = true ∧ (wCmp none true).served ((wCmp none true).cmpSources 2 creq) = true ∧ (wCmp none true).served ((wCmp none true).cmpSources 2 { creq with src := 0x40 }) = false ∧ (wCmp none true).cmpNext 1 (some { creq with src := 0x40 }) = some (2, { creq with src := 0x40 }) ∧ (wCmp none true).scr.bad = [] ∧ ({ faults := [.uncorrectable 0x80] } : MemRep).faults ≠ []) := by decide +kernel

def wSeg : State := { (on (on r0 pCMP) pHBM) with led := { segment := some { count := 2, packing := true, packed := none } }, cmp := [{}, { run := some { client := 1, req := { src := 0, srcLen := 64, dst := 0, dstLen := 2 ^ 22, param := 0 } } }] }

/-- What the compressor makes of one byte 7: a raw block, whatever token it chooses. -/
def sevens : List Byte := [3, 1, 0, 0, 1, 0, 0, 0, 1, 0, 0, 0, 7]

theorem head_nonempty (k : Token) : 1 ≤ k.head.length := by
  unfold Token.head; dsimp only; split <;> split <;> simp [leBytes]

theorem tokens_of_one (block stride room : Nat) (b : Byte) :
    cTokens 2 block stride [] [b] 1 1 room [] = (.run [] 0, true) := by
  have h := head_nonempty (chooseToken block stride [] [b] 1)
  simp only [cTokens, Token.encode, List.length_append, List.length_nil]
  rw [if_neg (by decide), if_pos (by omega)]

theorem witness_CompressorJobs_compress : compress [7] 128 0xC0000001 = some sevens := by
  have h := tokens_of_one (cmpBlock 0xC0000001) 1 116 7
  have e : min (cmpBlock 0xC0000001) ([7] : List Byte).length = 1 := by decide +kernel
  have p : bits 0xC0000001 23 0 = 1 := by decide +kernel
  simp only [compress, cBlocks, e, p]
  simp only [List.length_cons, List.length_nil, List.isEmpty_cons, Nat.sub_zero, Nat.zero_add, Bool.false_eq_true, if_false]
  have h' : cTokens (1 + 1) (cmpBlock 3221225473) 1 [] [7] 1 1 (128 - 12) [] = (QRun.run [] 0, true) := h
  simp only [h', if_neg (show ¬ (128 : Nat) < 76 by decide)]
  decide +kernel

theorem witness_CompressorJobs_done :
    (((wCmp (some (cjob 1 128)) false).cmpOf 1).run = some (cjob 1 128) ∧ (cjob 1 128).req.srcLen ≠ 0 ∧ (wCmp (some (cjob 1 128)) false).served ((wCmp (some (cjob 1 128)) false).cmpUses (cjob 1 128)) = true ∧ (wCmp none false).served [(0, 1)] = false ∧ compress [7, 7] 3 0xC0000001 = none ∧ (cjob 1 128).bad = false ∧ banksApart (wCmp none false).scr = true ∧ mapped 0xC00000040 1 = true ∧ mapped 0xC00000000 sevens.length = true ∧ (cjob 1 128).data = [7] ∧ memWf (wCmp none false).mem = true ∧ (cjob 1 128).data = memRead (wCmp none false).mem 0xC00000040 1 ∧ (decodePayload sevens 1 (crc32c [7]) true false).code = E.NONE ∧ (decodePayload sevens 1 (crc32c [7]) true false).out = [7] ∧ 0xC00000040 + 1 ≤ devEnd ∧ 0xC00000000 + sevens.length ≤ devEnd ∧ overlaps 0xC00000040 1 0xC00000000 sevens.length = false ∧ (wCmp none false).enabled pSPLIT = false) ∧
    (r0.led.segment = none ∧ (r0.cmpOf r0.ledgerUnit).run = none ∧ (wSeg.cmpOf wSeg.ledgerUnit).run.map (·.req.srcLen) = some (32 * 2) ∧ (wSeg.cmpOf wSeg.ledgerUnit).run.all (fun j => wSeg.served (wSeg.cmpUses j)) = true) := by decide +kernel

def rec1 : Rec := { src := 59, code := 3, flds := [.f 16 0x0102] }

def wLed (q : List Rec) (held : Nat) : State := { r0 with led := { r0.led with queues := [(59, q)], held := List.replicate held ([], { seq := 0, own := true, epoch := 0, lineHi := 0 }), dropped := [(58, 9)] } }

def wLedOn : State := { ((on (on (wLed [rec1] 0) pLEDGER) pHBM).setActive LEDGER.RING_SIZE 16) with lineTime := 2 ^ 32 }

def wLedHeld : State := { ((on (on (wLed [] 2) pLEDGER) pHBM).setActive LEDGER.RING_SIZE 16) with lineTime := 2 ^ 32 }

def wLedDoze : State := { wLedOn with power := { st := 2 }, hbm := { low := 1 } }

theorem witness_LedgerWriter :
    (r0.power.st ≠ 4 ∧ r0.waitingAt 59 = [] ∧ (wLed [rec1] 0).waitingAt 59 = [rec1] ∧ (fldBytes ((wLed [rec1] 0).auxLine rec1) rec1.flds).length ≤ 16 ∧ rec1.latch = none ∧ rec1.opens = none ∧ rec1.closes = none ∧ (∀ q < 8, bit (wLedOn.reg (LEDGER.Q_FILTER q)) 31 = false) ∧ wLedOn.enabled pLEDGER = true ∧ 0 < wLedOn.ringCap ∧ wLedOn.led.waiting.length < wLedOn.ringCap ∧ wLedOn.served (wLedOn.ringRegions wLedOn.led.written 1) = true ∧ memWf wLedOn.mem = true ∧ wLedOn.ringBase + 32 * (wLedOn.led.written % wLedOn.ringCap) + 32 ≤ scratchBase ∧ (on ((wLed [rec1] 0).setActive LEDGER.RING_SIZE 16) pLEDGER).served ((wLedOn.ringRegions wLedOn.led.written (wLedOn.recCount rec1))) = false ∧ (wLed [rec1] 1023).led.held.length < 1024 ∧ 1024 ≤ (wLed [rec1] 1024).led.held.length ∧ (wLed [rec1] 1023).enabled pLEDGER = false) := by decide +kernel

theorem witness_LedgerWriter_2 :
    (wLedHeld.enabled pLEDGER = true ∧ wLedHeld.led.held ≠ [] ∧ wLedHeld.served (wLedHeld.ringRegions wLedHeld.led.written wLedHeld.led.held.length) = true ∧ wLedHeld.waitingAt 59 = [] ∧ wLedHeld.power.st < 2 ∧ 0 < wLedHeld.ringCap ∧ wLedHeld.led.waiting.length + wLedHeld.led.held.length ≤ wLedHeld.ringCap ∧ (wLedHeld.setReg (CTRL pHBM) 0).served (wLedHeld.ringRegions wLedHeld.led.written wLedHeld.led.held.length) = false ∧ wLedDoze.power.st = 2 ∧ rec1.code ≠ V.STATE ∧ rec1.code < 2 ^ 16 ∧ wLedDoze.enabled pLEDGER = true ∧ wLedDoze.led.held = [] ∧ wLedDoze.served (wLedDoze.ringRegions wLedDoze.led.written 1) = true ∧ wLedDoze.waitingAt 59 = [rec1]) ∧
    (keyGet r0.led.dropped 59 = none ∧ keyGet (wLed [] 0).led.dropped 58 = some 9 ∧ ((wLed [] 0).waitingAt 58).length < 16 ∧ (58 : Nat) ≠ pLEDGER ∧ (r0.waitingAt rec1.src).length ≤ 16) := by decide +kernel

def tly (id first : Nat) : Tally := { id := id, src := 8, code := 5, key := id, count := 1, first := first, last := first, extra := [], byLine := false, age := 110 - first }

def wTal : State := { (r0.setReg LEDGER.TALLY_CFG 10) with lineTime := 110, led := { r0.led with tallies := [tly 0 100, tly 1 101] } }

theorem witness_TallyRules :
    (r0.tally? 5 0 = none ∧ (r0.waitingAt 8).length < 16 ∧ wTal.tally? 5 1 = some (tly 1 101) ∧ wTal.tally? 5 0 = some (tly 0 100) ∧ (tly 1 101).age < bits (wTal.reg LEDGER.TALLY_CFG) 23 0 ∧ bits (wTal.reg LEDGER.TALLY_CFG) 23 0 ≤ (tly 0 100).age ∧ bits (r0.reg LEDGER.TALLY_CFG) 23 0 = 0 ∧ bits (wTal.reg LEDGER.TALLY_CFG) 23 0 ≠ 0 ∧ (wTal.led.tallies.map (·.id)).Nodup ∧ r0.power.st ≠ 4) := by decide +kernel

def wExp (packing : Bool) (size : Nat) : State := { ((((on (on r0 pLEDGER) pHBM).setActive LEDGER.RING_SIZE 16).setReg (LEDGER.Q_FILTER 0) (2 ^ 31)).setActive (LEDGER.Q_SIZE 0) size).setReg (LEDGER.Q_TAIL 0) 63 |>.setReg (LEDGER.Q_HEAD 0) 63 with
  led := { r0.led with waiting := [{ seq := 0, own := true, epoch := 0, lineHi := 0 }], written := 1, segment := some { count := 1, packing := packing, packed := none } } }

theorem witness_LedgerSegments :
    (r0.power.st ≠ 4 ∧ r0.led.waiting = [] ∧ (wExp true 64).led.segment.isSome = true ∧ ({ (wExp true 64) with led := { (wExp true 64).led with segment := none } } : State).led.waiting ≠ [] ∧ r0.led.segment = none ∧ (wExp true 64).led.segment = some { count := 1, packing := true, packed := none } ∧ (wExp false 2).queueFree 0 < 2 ∧ 2 ≤ (wExp false 64).queueFree 0 ∧ (wExp false 64).served ((wExp false 64).segmentRegions { count := 1, packing := false, packed := none }) = true ∧ bit ((wExp false 64).reg (LEDGER.Q_FILTER 0)) 31 = true ∧ (wExp false 64).reg (LEDGER.Q_TAIL 0) < (wExp false 64).active (LEDGER.Q_SIZE 0) ∧ (wExp false 64).active (LEDGER.Q_SIZE 0) < 2 ^ 32 ∧ risingFrom 0 (wExp false 64).regs = true) := by decide +kernel

def wReplay (pos fill : Nat) : State := (((r0.setReg LEDGER.REPLAY_CTRL (2 ^ 31)).setReg LEDGER.REPLAY_STATUS (2 ^ 30)).setReg LEDGER.REPLAY_POS pos).setReg LEDGER.REPLAY_FILL fill

def wWin (t : Nat) : State := { r0 with lineTime := t }

def wWinN (n t : Nat) : State := { (wWin t) with led := { (wWin t).led with digestN := n } }

theorem token_nonempty (k : Token) : 1 ≤ k.encode.length := by
  have h : 1 ≤ k.head.length := by
    simp only [Token.head]
    split <;> split <;> simp [leBytes]
  simp only [Token.encode, List.length_append]
  omega

theorem witness_CompressorJobs_some : compress [7] 76 0xC0000000 = some [3, 0, 0, 0, 1, 0, 0, 0, 1, 0, 0, 0, 7] := by
  have hb : min (cmpBlock 0xC0000000) 1 = 1 := by decide
  have hs : bits 0xC0000000 23 0 = 0 := by decide
  simp [compress, cBlocks, cTokens, hb, hs, token_nonempty, leBytes]

theorem witness_DigestsAndReplay :
    (r0.power.st ≠ 4 ∧ r0.led.digestN = 0 ∧ (wWinN 8 9).led.digestN = 8 ∧ bits (r0.reg LEDGER.DIGEST_CFG) 15 0 = 256 ∧ (wWin 257).lineTime % bits (r0.reg LEDGER.DIGEST_CFG) 15 0 ≠ 0 ∧ (wWin 256).lineTime % bits (r0.reg LEDGER.DIGEST_CFG) 15 0 = 0 ∧ bits (r0.reg LEDGER.DIGEST_CFG) 15 0 ≤ (wWin 256).lineTime ∧ (wWin 256).replayRuns = false ∧ (r0.waitingAt pLEDGER).length < 16 ∧ (∀ x ∈ r0.slots, x.st = .empty) ∧ (wReplay 0 0).replayRuns = true ∧ (∃ x ∈ wLead.slots, x.st ≠ .empty) ∧ (wReplay 0 9).pacerHolds = false ∧ (wReplay 8 9).reg LEDGER.REPLAY_POS < (wReplay 8 9).reg LEDGER.REPLAY_FILL ∧ (wReplay 9 9).reg LEDGER.REPLAY_FILL ≤ (wReplay 9 9).reg LEDGER.REPLAY_POS) := by decide +kernel

/-- A letter whose payload is not compressed. -/
def lett (kind job seq : Nat) (aux : Nat := 0) (pay : List Byte := []) (flags : Nat := 0) (target : Nat := 0) (magic : Nat := 0x4C51) : List Byte :=
  leBytes 1 kind ++ [0] ++ leBytes 2 flags ++ leBytes 2 target ++ leBytes 2 magic ++ leBytes 4 job ++ leBytes 4 seq ++
    leBytes 4 pay.length ++ leBytes 4 pay.length ++ leBytes 4 (crc32c pay) ++ leBytes 4 aux ++ pay

/-- MAIL on, with a mailbag of 1 MiB, and letters in stream 0. -/
def wMailOn (ls : List (List Byte)) : State :=
  let s : State := (on (on r0 pMAIL) pHBM).setActive HBM.MAILBAG_SIZE 1
  { s with dma := { s.dma with stream := { letters := ls } :: s.dma.stream.tail } }

def wFwd (up : Bool) : State := { (wMailOn []) with peers := { (wMailOn []).peers with side := [{ up := up, peerDev := 5 }, {}] } }

def wTarget5 : List Byte := lett 9 1 0 0 [] 0 5

def wSlotOf (x : Slot) : State := { (wMailOn []) with slots := x :: r0.slots.tail }

def wGather (e : Nat) : Slot := { st := .gathering, job := 1, nextSeq := e }

def wRoute (up : Bool) : State := (((wFwd up).setActive PEER.CHAIN_CFG 33).setActive (PEER.POS_DEV 0) 5).setActive (PEER.POS_DEV 1) 0

def wHigh (h : Nat) : State := { (wMailOn []) with mail := { r0.mail with highest := some h } }

def wFour : State := { (wMailOn []) with slots := [{ st := .staged, job := 5 }, { st := .staged, job := 6 }, { st := .staged, job := 7 }, { st := .staged, job := 8 }] }

def wAhead (gap : Bool) : Slot := { (wGather 1) with held := [lett 9 1 3], gap := gap }

/-- A letter of 32 bytes in the forward buffer of the west side. -/
def wForward : State :=
  let s : State := ((wMailOn []).setActive PEER.FWD_SIZE 1).writeMem ((wMailOn []).fwdBase 0) (lett 1 1 0)
  { s with peers := { s.peers with side := [{ letters := [(0, 32)] }, {}] } }

theorem witness_LetterArrives :
    (r0.power.st ≠ 4 ∧ r0.enabled pMAIL = false ∧ (r0.streamOf 0).letters = [] ∧ (r0.sideOf 0).letters = [] ∧
    (wMailOn [lett 1 1 0]).enabled pMAIL = true ∧ ((wMailOn [lett 1 1 0]).streamOf 0).letters = [lett 1 1 0] ∧
    letterMagic (lett 1 1 0) = 0x4C51 ∧ (wMailOn [lett 1 1 0]).mailRoom (lett 1 1 0) = true ∧
    ((wMailOn [lett 1 1 0]).setActive HBM.MAILBAG_SIZE 0).mailRoom (lett 1 1 0) = false ∧
    letterMagic (lett 1 1 0 0 [] 0 0 0x4C52) ≠ 0x4C51 ∧
    (wMailOn [lett 1 1 0]).served ((wMailOn [lett 1 1 0]).arrivalRegions [] (lett 1 1 0)) = true ∧
    ((on r0 pMAIL).setActive HBM.MAILBAG_SIZE 1).served (((on r0 pMAIL).setActive HBM.MAILBAG_SIZE 1).arrivalRegions [] (lett 1 1 0)) = false ∧
    ((on r0 pMAIL).setActive HBM.MAILBAG_SIZE 1).mailRoom (lett 1 1 0) = true) ∧
    (1023 < letterTarget (lett 9 1 0 0 [] 0 1024) ∧ letterTarget (lett 9 1 0 0 [] 0 1023) ≤ 1023 ∧ letterTarget wTarget5 ≤ 1023 ∧ letterTarget wTarget5 ≠ (wFwd true).deviceNo ∧ letterTarget (lett 9 1 0) = r0.deviceNo) ∧
    ((wMailOn []).authOk (lett 1 1 0 0 [] 2) false = false ∧ (wMailOn []).authOk (lett 1 1 0) false = true ∧ (wMailOn []).slotOfJob 1 = none ∧ (wMailOn []).authOk (lett 1 1 0 0 [] 2) true = false ∧ letterAuth (lett 1 1 0 0 [] 2) = true) := by decide +kernel

theorem witness_LetterArrives_2 :
    ((wHigh 3).mail.highest = some 3 ∧ precedes 3 1 = false ∧ precedes 0 1 = true ∧ (∀ k < 4, (wFour.slotOf k).st ≠ .empty) ∧ wFour.mail.highest = none ∧ wFour.slotOfJob 1 = none ∧ (wHigh 0).slots.length = 4 ∧ (∀ i < 1, ((wSlotOf (wGather 1)).slotOf i).st ≠ .empty) ∧ ((wSlotOf (wGather 1)).slotOf 1).st = .empty ∧ letterSeq (lett 1 2 0) = 0 ∧ letterKind (lett 1 2 0) = kJOB_OPEN) ∧
    ((wSlotOf (wGather 1)).slotOfJob 1 = some 0 ∧ (wGather 1).held = [] ∧ (wGather 1).gap = false ∧ ((wGather 1).nextSeq = 0 ↔ letterKind (lett 9 1 1) = 1) ∧ ((wGather 0).st = .gathering ∧ letterKind (lett 9 1 0) ≠ 1) ∧ 10 < letterKind (lett 11 1 1) ∧ letterKind (lett 1 1 1) < 2) ∧
    ((∃ m ∈ (wAhead true).held, letterSeq m = letterSeq (lett 9 1 3)) ∧ (∀ m ∈ (wAhead true).held, letterSeq m ≠ letterSeq (lett 9 1 2)) ∧ sumNat ((wAhead true).held.map letterBytes) + letterBytes (lett 9 1 2) ≤ r0.reorderMax ∧ ((r0.setReg MAIL.REORDER_MAX 0).reorderMax < letterBytes (lett 9 1 2)) ∧ (2 ^ 31 ≤ (letterSeq (lett 9 1 0) + 2 ^ 32 - (wGather 1).nextSeq) % 2 ^ 32)) ∧
    ((wRoute true).routeSide (letterTarget wTarget5) = some 0 ∧ ((wRoute true).sideOf 0).up = true ∧ letterTarget wTarget5 ≠ (wRoute true).deviceNo) := by decide +kernel

theorem witness_LetterArrives_3 :
    (wForward.enabled pMAIL = true ∧ (wForward.sideOf 0).letters = [(0, 32)] ∧ wForward.fwdRead 0 0 32 = lett 1 1 0 ∧ wForward.mailRoom (lett 1 1 0) = true ∧ wForward.served (wForward.arrivalRegions (wForward.fwdRegions 0 0 32) (lett 1 1 0)) = true ∧ (wForward.setActive HBM.MAILBAG_SIZE 0).mailRoom (lett 1 1 0) = false ∧ (let t : State := wSlotOf { (wGather 1) with released := [(0, lett 9 1 0)] }; let l := lett 9 1 0; t.slotOfJob (letterJob l) = some 0 ∧ (t.slotOf 0).released.any (·.2 == l) = true ∧ t.bagEntry 0 (letterSeq l) false = none ∧ t.bagPlace (l.take (letterBytes l)).length = [(0, (l.take (letterBytes l)).length)] ∧ t.mailBase + 0 + (l.take (letterBytes l)).length ≤ scratchBase ∧ (t.slotOf 0).held.contains l = false ∧ memWf t.mem = true ∧ writeFails [.poisoned 0 false] = [])) := by decide +kernel

def wHalted : State := { r0 with mail := { r0.mail with halted := [3] } }

def wDec (l : List Byte) (st : SlotState := .staged) : State := { (on (on r0 pMAIL) pDEC) with slots := { st := st, job := 1, nextSeq := 2, released := [(1, l)], nextOrd := 2 } :: r0.slots.tail }

/-- A letter of one raw QLC block, whose output is `data` of the given stride. -/
def lettQ (kind job seq aux stride : Nat) (data : List Byte) : List Byte :=
  let pay := [3] ++ leBytes 3 stride ++ leBytes 4 data.length ++ leBytes 4 data.length ++ data
  leBytes 1 kind ++ [0] ++ leBytes 2 1 ++ leBytes 2 0 ++ leBytes 2 0x4C51 ++ leBytes 4 job ++ leBytes 4 seq ++
    leBytes 4 pay.length ++ leBytes 4 data.length ++ leBytes 4 (crc32c data) ++ leBytes 4 aux ++ pay

def wStampL : List Byte := lettQ 2 1 1 9 2 [1, 2, 3, 4]

def wAlbum (n : Nat) : State := (wDec wStampL).setActive ALBUM.REGION_FRAMES n

/-- A decoder 0 at work on a letter of slot 0. -/
def wWork (j : DecJob) (x : Slot := { st := .staged, job := 1 }) : State := { ((on (on (on r0 pMAIL) pDEC) pHBM).setActive HBM.MAILBAG_SIZE 1) with slots := x :: r0.slots.tail, mail := { r0.mail with decs := some j :: List.replicate 7 none } }

def wJ (l : List Byte) : DecJob := { slot := 0, ord := 1, bytes := l }

def wBadFence : List Byte := (lett 9 1 1 0 [7, 0, 0, 0, 0, 0]).set 24 0

def wFenceL : List Byte := lett 9 1 1 0 [7, 0, 0, 0, 0, 0]

/-- An enclosure of 1 by 1, one raw byte behind its 16. -/
def wEncL : List Byte := lett 5 1 1 0 ([0, 0] ++ leBytes 2 1 ++ leBytes 2 1 ++ List.replicate 10 0 ++ [9])

def wEncS (frames : Nat) : State := (on (wWork (wJ wEncL)) pALBUM).setActive ALBUM.REGION_FRAMES frames

theorem witness_MailCommands :
    (r0.dma.stream.length = 32 ∧ r0.dma.ring.length = 32 ∧ 3 ∈ wHalted.mail.halted ∧ r0.enabled pDEC = false ∧ (wDec (lett 9 1 1)).idleDecoder = some 0 ∧ (wDec (lett 9 1 1)).nextSlot = some 0 ∧ (wDec (lett 9 1 1)).enabled pDEC = true ∧ ((wDec (lett 9 1 1)).slotOf 0).released = [(1, lett 9 1 1)] ∧ r0.nextSlot = none) ∧
    (letterKind wStampL = kSTAMP ∧ (wAlbum 1).isDuplicate 0 wStampL = false ∧ stampHead wStampL = some { raw := true, last := true, stride := 2, coded := 4, out := 4 } ∧ stampWidthOk wStampL { raw := true, last := true, stride := 2, coded := 4, out := 4 } = true ∧ letterAux wStampL ≤ 4095 ∧ framesOf 2 (letterRaw wStampL / 2) ≤ (wAlbum 1).freeFrames.length ∧ (wAlbum 0).freeFrames.length < framesOf 2 (letterRaw wStampL / 2)) := by decide +kernel

theorem witness_MailCommands_2 :
    ((wWork { wJ (lett 4 1 1) with waits := true }).decOf 0 = some { wJ (lett 4 1 1) with waits := true } ∧ (wWork { wJ (lett 4 1 1) with waits := true }).directUsed + letterRaw (lett 4 1 1) ≤ (wWork { wJ (lett 4 1 1) with waits := true }).directSize ∧ (wJ (lett 9 1 1)).waits = false ∧ ({ wJ (lett 9 1 1) with done := true } : DecJob).done = true ∧ (wJ (lett 9 1 1)).done = false ∧ (wJ (lett 9 1 1)).pre = none ∧ (wWork (wJ (lett 9 1 1))).enabled pDEC = true ∧ r0.decOf 0 = none ∧ (wWork (wJ (lett 9 1 1))).mail.decs.length = 8) ∧
    ((let r := decodePayload (letterPayload wFenceL) (letterRaw wFenceL) (letterCheck wFenceL) (letterQlc wFenceL) (letterKind wFenceL == kSTAMP); (r.code = E.NONE ∨ r.code = E.ZERO) ∧ (wWork (wJ wFenceL)).payloadFault 0 wFenceL r.out = none ∧ letterKind wFenceL ≠ kSTAMP ∧ letterKind wFenceL ≠ kENCLOSURE ∧ letterKind wFenceL = kFENCE ∧ r.code = E.NONE ∧ (wWork (wJ wFenceL)).letterOf (wJ wFenceL) = wFenceL ∧ (wWork (wJ wFenceL)).served ((wWork (wJ wFenceL)).decRegions (wJ wFenceL) r.out) = true ∧ ((wWork (wJ wFenceL)).setReg (CTRL pHBM) 0).served (((wWork (wJ wFenceL)).setReg (CTRL pHBM) 0).decRegions (wJ wFenceL) r.out) = false ∧ (wWork (wJ wFenceL)).bagBad (wJ wFenceL) = false ∧ ({ wJ wFenceL with pre := some { code := E.BAD_CODE, off := 0 } } : DecJob).pre.isSome = true ∧ (wWork (wJ wFenceL)).bagEntry 0 1 false = none)) ∧
    ((let r := decodePayload (letterPayload wBadFence) (letterRaw wBadFence) (letterCheck wBadFence) (letterQlc wBadFence) (letterKind wBadFence == kSTAMP); r.code ≠ E.NONE ∧ r.code ≠ E.ZERO ∧ letterKind wBadFence = kFENCE)) ∧
    ((wReplay 0 9).replaying = true ∧ r0.replaying = false) ∧
    (letterKind (lett 9 1 1) ≠ kSTAMP ∧ letterKind (lett 9 1 1) ≠ kGLYPH_SET ∧ letterKind (lett 9 1 1) ≠ kDIRECT ∧ letterKind (lett 4 1 1) = kDIRECT ∧ letterAux (lett 4 1 1 7) ≤ 7 ∧ letterRaw (lett 4 1 1 7) ≤ r0.directSize) ∧
    (letterKind (lett 7 1 1 3) = kGLYPH_SET ∧ (wDec (lett 7 1 1 3)).isDuplicate 0 (lett 7 1 1 3) = false ∧ letterAux (lett 7 1 1 3) ≤ 3 ∧ ceilDiv (letterRaw (lett 7 1 1 3)) 4096 ≤ (wDec (lett 7 1 1 3)).freePages.length) ∧
    ((let s := wEncS 1; let r := decodePayload (letterPayload wEncL) (letterRaw wEncL) (letterCheck wEncL) (letterQlc wEncL) (letterKind wEncL == kSTAMP); letterKind wEncL = kENCLOSURE ∧ 16 ≤ r.out.length ∧ (r.code = E.NONE ∨ r.code = E.ZERO) ∧ framesOf (fld r.out 2 2) (fld r.out 4 2) ≤ s.freeFrames.length ∧ (wEncS 0).freeFrames.length < framesOf (fld r.out 2 2) (fld r.out 4 2) ∧ s.payloadFault 0 wEncL r.out = none ∧ s.letterOf (wJ wEncL) = wEncL ∧ s.bagBad (wJ wEncL) = false ∧ s.served (s.decRegions { wJ wEncL with frames := s.freeFrames.take 1 } r.out) = true)) := by decide +kernel

/-- A decoder 0 that has decoded a letter of slot 0. -/
def wShown (l : List Byte) (x : Slot := { st := .staged, job := 1 }) (frames : List Nat := []) : State :=
  wWork { wJ l with done := true, out := (decodePayload (letterPayload l) (letterRaw l) (letterCheck l) (letterQlc l) false).out, frames := frames } x

def wParams (across : Nat) : List Byte := leBytes 4 1000 ++ leBytes 2 64 ++ [0] ++ leBytes 1 across ++ leBytes 4 100 ++ [0xFF, 0xFF, 0, 1] ++ List.replicate 18 0 ++ [9, 0]

def wBudget (s : State) : State := ((s.setActive TILE.LEAD_SIZE 4).setActive MAIL.BUDGET_TILE 3).setActive MAIL.BUDGET_HBM 200

def wOpenL (across : Nat) : List Byte := lett 1 1 0 0 (wParams across)

def wOpen (across : Nat) : State := wShown (wOpenL across) (wGather 1)

/-- The same with the output of the FENCE in the mailbag region. -/
def wBagged : State := let s := wShown wFenceL; { s with mail := { s.mail with bag := [{ slot := 0, seq := 1, out := true, place := [(64, 6)], bad := false }] }, mem := [(64, 8)] }

def wCloseL : List Byte := lett 8 1 2 0 [9, 0, 0, 0, 0, 0]

def wPlanned : State := (wShown wCloseL { st := .writing, job := 1, planned := 10, composed := 9 })

def wPlan : State := { wPlanned with comp := { wPlanned.comp with plan := some { lt := 9, rcd := { job := 1, line := 9, st := 2 } } } }

def wEnded : Slot := { st := .staged, job := 1, ends := some 3 }

def wOpened (across : Nat) : Slot := { (wGather 1) with params := fixedPayload 800 (wParams across) }

def wPostL (stamp line : Nat) : List Byte := lett 3 1 2 1 (leBytes 2 stamp ++ [2, 1] ++ leBytes 4 5 ++ leBytes 6 line ++ [0, 0] ++ leBytes 4 3 ++ leBytes 4 10)

def wStamped : Slot := { st := .staged, job := 1, planned := 4, composed := 4, stamps := [{ num := 9, st := 2, w := 2, h := 2, frames := [0], check := 0 }] }

def wDirectL : List Byte := lett 4 1 2 3 (leBytes 6 8 ++ leBytes 2 5 ++ leBytes 4 2 ++ leBytes 3 1 ++ [4] ++ [0xAA, 0xBB])

def wGlyphL : List Byte := lett 7 1 2 3 (List.replicate 4 0)

/-- Counter 7: mask 1, START 5, STEP 2, MODULUS 3 (which BAD_CODE would refuse at the decoder). -/
def wFrankDef (kind : Nat) (modulus : Nat) : List Byte := leBytes 1 kind ++ [0, 0, 0, 6, 0, 0, 0] ++ List.replicate 8 0 ++ leBytes 8 1 ++ leBytes 8 5 ++ leBytes 8 2 ++ leBytes 8 modulus ++ [4, 0, 4, 0, 0, 0, 0, 0]

def wFrankL : List Byte := lett 6 1 2 7 (wFrankDef 0 10)

def wFranked : Slot := { wEnded with params := fixedPayload 800 (wParams 1), fields := [{ num := 7, defn := wFrankDef 1 0, counter := 0 }] }

def wEnclL : List Byte := lett 5 1 3 0 ([7, 0] ++ leBytes 2 2 ++ leBytes 2 1 ++ [0, 0] ++ leBytes 4 6 ++ [0, 0, 0, 0] ++ [9, 8])

/-- A countersign: job, cell, seal, flags. -/
def sign (job cell sealV : Nat) (flags : Nat := 0) (target : Nat := 0) : List Byte := leBytes 4 job ++ leBytes 4 cell ++ leBytes 4 sealV ++ leBytes 2 target ++ leBytes 1 flags ++ [0]

theorem witness_LettersVisible :
    (r0.visible 0 kJOB_OPEN = none ∧ r0.visible 0 kSTAMP = none ∧ r0.visible 0 kPOSTING_TABLE = none ∧ r0.visible 0 kDIRECT = none ∧ r0.visible 0 kENCLOSURE = none ∧ r0.visible 0 kFRANK_DEF = none ∧ r0.visible 0 kGLYPH_SET = none ∧ r0.visible 0 kJOB_CLOSE = none ∧ r0.visible 0 kFENCE = none ∧ r0.visible 0 kCOUNTERSIGN_BATCH = none) ∧
    ((wBagged.visible 0 kFENCE).isSome = true ∧ wBagged.bagRegions (wBagged.bagEntry 0 1 true) = [(64, 6)] ∧ wBagged.served [(64, 6)] = true ∧ (wBagged.setReg (CTRL pHBM) 0).served [(64, 6)] = false ∧ ([.poisoned 64 false] : List MemFault).any isPoison = true) ∧
    (((wShown wFenceL).visible 0 kFENCE).isSome = true) := by decide +kernel

theorem witness_LettersVisible_2 :
    ((wPlan.visible 0 kJOB_CLOSE).isSome = true ∧ (wPlan.slotOf 0).ends = none ∧ ((wPlan.setDec 0 none).setEnd 0 9).comp.plan ≠ none ∧ ((wPlan.setDec 0 none).setEnd 0 9).checkPlan.comp.plan = none ∧ (((wShown wCloseL).setDec 0 none).setEnd 0 9).comp.plan = none ∧ ((wShown wCloseL).visible 0 kJOB_CLOSE).isSome = true ∧ ((wShown wCloseL).slotOf 0).ends = none ∧ (wShown wCloseL).slots.length = 4 ∧ ((wShown wCloseL wEnded).visible 0 kJOB_CLOSE).isSome = true ∧ ((wShown wCloseL wEnded).slotOf 0).ends.isSome = true) ∧
    (((wOpen 1).visible 0 kJOB_OPEN).isSome = true ∧ ((wBudget (wOpen 1)).visible 0 kJOB_OPEN).isSome = true ∧ ((wBudget (wOpen 1)).setDec 0 none).badGrid (wOpened 1) = false ∧ ((wBudget (wOpen 1)).setDec 0 none).overBudget (wOpened 1) = false ∧ (wBudget (wOpen 1)).slots.length = 4 ∧ ((wOpen 1).slotOf 0).st ≠ .staged ∧ ((wOpen 1).setDec 0 none).badGrid (wOpened 1) = false ∧ ((wOpen 1).setDec 0 none).overBudget (wOpened 1) = true ∧ ((wOpen 0).visible 0 kJOB_OPEN).isSome = true ∧ ((wOpen 0).setDec 0 none).badGrid (wOpened 0) = true) := by decide +kernel

theorem witness_LettersVisible_3 :
    (((wShown wStampL).visible 0 kSTAMP).isSome = true ∧ (stampHead wStampL).isSome = true ∧ ((wShown (wPostL 9 4) wStamped).visible 0 kPOSTING_TABLE).isSome = true ∧ ((wShown (wPostL 9 4) wStamped).decOf 0).any (fun j => j.out.length == 24 && (postingAt j.out 0).count == 3 && (postingAt j.out 0).stamp == 9 && (postingAt j.out 0).line == 4) = true ∧ (wShown (wPostL 9 4) wStamped).inFlight < 16384 ∧ (wStamped.stampOf 9).any (fun q => q.st == 2 && q.h == 2) = true ∧ wStamped.composed ≤ 4 ∧ (wShown (wPostL 9 4) wStamped).bagEntry 0 2 true = none ∧ ((wShown (lett 3 1 2)).visible 0 kPOSTING_TABLE).isSome = true ∧ letterRaw (lett 3 1 2) < 24 ∧ (wShown (lett 3 1 2)).inFlight ≤ 16384) ∧
    (((wShown wDirectL wStamped).visible 0 kDIRECT).any (fun j => fld j.out 8 4 == 2 && fld j.out 12 3 == 1 && fld j.out 0 6 == 8) = true ∧ wStamped.composed < 8 + 1) ∧
    (((wShown wGlyphL wEnded [5]).visible 0 kGLYPH_SET).isSome = true ∧ letterRaw wGlyphL ≠ 0) ∧
    (((wShown wFrankL { wEnded with params := fixedPayload 800 (wParams 1) }).visible 0 kFRANK_DEF).any (fun j => fld (fixedPayload 56 j.out) 16 8 == 1) = true ∧ wEnded.assigned = 0 ∧ wEnded.fieldOf 7 = none ∧ 1 < 2 ^ wFranked.across ∧ ((wShown wFrankL wFranked).visible 0 kFRANK_DEF).isSome = true ∧ (wFranked.fieldOf 7).isSome = true ∧ letterAux wFrankL = 7) := by decide +kernel

theorem witness_LettersVisible_4 :
    (((wShown wEnclL wFranked [1]).visible 0 kENCLOSURE).any (fun j => wFranked.enclosureOk j.out && !wFranked.seen.contains (fld j.out 0 1, fld j.out 8 4)) = true ∧ letterRaw wEnclL ≠ 0 ∧ wFranked.assigned = 0 ∧ ((wShown wEnclL { wFranked with seen := [(7, 6)] } [1]).visible 0 kENCLOSURE).any (fun j => ([(7, 6)] : List (Nat × Nat)).contains (fld j.out 0 1, fld j.out 8 4)) = true) ∧
    (((wShown (lett 10 1 2 1 (sign 1 0 5)) wStamped).visible 0 kCOUNTERSIGN_BATCH).any (fun j => j.out.length == 16) = true) := by decide +kernel

def wSeal (cs : List (List Byte)) (ctrl : Nat := 2) : State := { (r0.setReg (CTRL pSEAL) ctrl) with dma := { r0.dma with countersigns := cs } }

/-- A leading job on slot 0 whose line 0 is taken in line time 100, with a lead of 64 lines, and its cells. -/
def wCells (cs : List Cell) (st : SlotState := .leading) (ends : Option Nat := none) : State := { r0 with slots := { st := st, job := 1, params := fixedPayload 800 (wParams 1), take := some 100, cells := cs, ends := ends } :: r0.slots.tail }

def cel (st : Nat) (more : Cell → Cell := id) : Cell := more { idx := 3, st := st, rep := 3, sealVal := some 5 }

theorem witness_Countersigns :
    (r0.dma.countersigns = [] ∧ bit ((wSeal [sign 1 3 5] 0).reg (CTRL pSEAL)) 1 = false ∧ (wReplay 0 9).replaying = true ∧ (wSeal [sign 1 3 5]).dma.countersigns = [sign 1 3 5] ∧ bit ((wSeal [sign 1 3 5]).reg (CTRL pSEAL)) 1 = true ∧ r0.replaying = false ∧ csTarget (sign 1 3 5) = r0.deviceNo ∧ (wSeal [sign 1 3 5]).csDueNow (sign 1 3 5) = false ∧ csTarget (sign 1 3 5 0 9) ≠ r0.deviceNo ∧ r0.routeSide (csTarget (sign 1 3 5 0 9)) = none) ∧
    (r0.slotOfJob (csJob (sign 1 3 5)) = none ∧ csReserved (sign 1 3 5 2) = true ∧ csReserved (sign 1 3 5 0 1024) = true ∧ csReserved (sign 1 3 5) = false ∧ csJob (sign 1 3 5) ≠ 2) ∧
    (∀ st ∈ [1, 2, 3, 4], (wCells [cel st]).csSlot (sign 1 3 5) 0 0 = some 0 ∧ ((wCells [cel st]).slotOf 0).liveCell (csCell (sign 1 3 5)) = some (cel st)) := by decide +kernel

theorem witness_Countersigns_2 :
    ((wCells [cel 1]).decisionAt ((wCells [cel 1]).slotOf 0) (cel 1) = some 400 ∧ (400 : Nat) ≤ 400 ∧ (399 : Nat) < 400 ∧ (cel 1 fun c => { c with signed := true }).signed = true ∧ (cel 1).signed = false ∧ bit (csFlags (sign 1 3 5)) 0 = false ∧ (cel 1).sealVal = some (csSeal (sign 1 3 5)) ∧ (cel 1).sealVal ≠ some (csSeal (sign 1 3 6)) ∧ (cel 1).committed = false ∧ bit (csFlags (sign 1 3 5 1)) 0 = true ∧ (cel 1).live = true) ∧
    ((wCells []).csSlot (sign 1 3 5) 0 0 = some 0 ∧ ((wCells []).slotOf 0).liveCell 3 = none ∧ ((wCells []).slotOf 0).entry 3 = none ∧ ((wCells [cel 7]).slotOf 0).liveCell 3 = none ∧ ((wCells [cel 7]).slotOf 0).entry 3 = some (cel 7) ∧ (wCells [cel 7]).csSlot (sign 1 3 5) 0 0 = some 0) := by decide +kernel

theorem witness_VoidsAndMarkings :
    ((r0.slotOf 2).liveCell 3 = none ∧ (∀ st ∈ [1, 2, 3, 4], ((wCells [cel st]).slotOf 0).liveCell 3 = some (cel st)) ∧ (cel 1).committed = false ∧ (cel 1 fun c => { c with committed := true }).committed = true ∧ r0.pairSides (cel 1).pos = [] ∧ (cel 3).reason = 0 ∧ rDAMAGE ≠ (cel 3).reason ∧ (cel 3).later.contains rDAMAGE = false) ∧
    (((wCells [cel 3 fun c => { c with committed := true }]).slotOf 0).liveCell 3 = some (cel 3 fun c => { c with committed := true }) ∧ (0 : Nat) = (cel 3).reason) := by decide +kernel

def wAt (t : Nat) (cs : List Cell) (st : SlotState := .leading) (ends : Option Nat := none) : State := { (wCells cs st ends) with lineTime := t }

def dueCells (s : State) (n : Nat) : List Cell := (s.slotOf n).cells.filter fun c => c.live && !c.decided && match s.decisionAt (s.slotOf n) c with
  | none => false
  | some t => decide (t ≤ s.lineTime)

def judgedCells (s : State) (n : Nat) : List Cell := match (s.slotOf n).start with
  | none => []
  | some t0 => (s.slotOf n).liveCells.filter fun c => (match (s.slotOf n).ends with
      | none => true
      | some e => decide ((s.slotOf n).firstLine c < e)) && decide (s.verdictAt t0 ((s.slotOf n).lastLine c) ≤ s.lineTime)

def wReject (s : State) : State := s.setReg (CTRL pSEAL) 6

def isLast (s : State) (n : Nat) : Bool := match (s.slotOf n).st, (s.slotOf n).start, (s.slotOf n).ends with
  | .draining, some t0, some e => decide ((if e = 0 then t0 else s.verdictAt t0 (e - 1)) ≤ s.lineTime)
  | _, _, _ => false

theorem witness_CellEdges_verdicts : (∀ n : Fin 4, judgedCells (wAt 694 [cel 2]) n = [] ∧ isLast (wAt 694 [cel 2]) n = false) ∧
    (∀ n : Fin 4, judgedCells (wAt 695 [cel 2]) n = (if n.val = 0 then [cel 2] else []) ∧ isLast (wAt 695 [cel 2]) n = false) ∧
    bit ((wAt 695 [cel 2]).reg (CTRL pSEAL)) 2 = false ∧
    (∀ n : Fin 4, judgedCells (wReject (wAt 695 [cel 3])) n = (if n.val = 0 then [cel 3] else []) ∧ isLast (wReject (wAt 695 [cel 3])) n = false) ∧
    bit ((wReject (wAt 695 [cel 3])).reg (CTRL pSEAL)) 2 = true ∧ (wReject (wAt 695 [cel 3])).replaying = false ∧
    (wReject (wAt 695 [cel 3])).sealU.rejects.length < 256 ∧ (cel 3).st ≠ 2 ∧
    (∀ n : Fin 4, judgedCells (wAt 164 [] .draining (some 0)) n = [] ∧
      (isLast (wAt 164 [] .draining (some 0)) n = true ↔ n.val = 0)) := by decide +kernel

theorem witness_CellEdges :
    ((∀ n : Fin 4, dueCells (wAt 399 [cel 1]) n = [] ∧ dueCells (wAt 400 [cel 1]) n = (if n.val = 0 then [cel 1] else []) ∧ dueCells (wAt 400 [cel 2]) n = (if n.val = 0 then [cel 2] else [])) ∧ ((wAt 400 [cel 1]).slotOf 0).liveCell 3 = some (cel 1) ∧ ((wAt 400 [cel 2]).slotOf 0).liveCell 3 = some (cel 2) ∧ (wAt 400 [cel 2]).pairSides (cel 2).pos = []) := by decide +kernel

def wEchoSeg (echo : Option Nat) (lost : Bool := false) : Seg := { lt := 10, data := {}, cells := [(0, 3)], echo := echo, lost := lost }

def wEcho (t : Nat) (g : Seg) : State := { (wAt t [cel 2]) with segs := [g] }

def wRej (rs : List Reject) (dropped : Nat) : State := { (wReject r0) with sealU := { r0.sealU with rejects := rs, dropped := dropped } }

def rej : Reject := { typ := 0, reason := 4, job := 0x1FF, cell := 77 }

theorem witness_EchoesAndRejects :
    ((wEchoSeg (some 0)).lost = false ∧ (wEcho 13 (wEchoSeg (some 0))).segs = [wEchoSeg (some 0)] ∧ 13 < (wEchoSeg (some 0)).lt + 4 ∧ (wEchoSeg (some 0)).lt + 4 ≤ 14 ∧ (wEcho 14 (wEchoSeg none)).replaying = false ∧ (wEchoSeg none).echo ≠ some 0 ∧ (wEchoSeg none).cells = [(0, 3)] ∧ ((wEcho 14 (wEchoSeg none)).slotOf 0).liveCell 3 = some (cel 2) ∧ r0.sealU.rejects = []) ∧
    ((wRej [rej] 5).sealU.rejects = [rej] ∧ (wRej [rej] 5).replaying = false ∧ bits (wRej [] 0).sealU.cfg 11 0 ≠ 0 ∧ bit ((wRej [] 0).reg (CTRL pSEAL)) 2 = true ∧ (wRej [] 0).sealU.rejects = [] ∧ (wRej [] 0).replaying = false ∧ bit (r0.reg (CTRL pSEAL)) 2 = false ∧ rej.typ < 4 ∧ rej.reason < 256 ∧ rej.cell < 2 ^ 32) := by decide +kernel

/-- Cell position 0 of this device is shared with position 2 of the west neighbour. -/
def wShare (t : Nat) (c : Cell) : State := (wAt t [c]).setActive (PLACE.OVL_PAIR 0 0) (2 ^ 31 + 2 * 2 ^ 8)

def vBody (vkind v : Nat) : List Byte := verdictBody 1 3 2 vkind v

def cs (st : Nat) (f : ShareSide) (more : Cell → Cell := id) : Cell := cel st fun c => more { c with share := [f, {}] }

def combineDue (s : State) (n : Nat) : List Cell := s.sharedDue n fun t c sides => c.combV.isNone && c.decided &&
  decide (t ≤ s.lineTime + sides.foldl (fun m d => min m (s.shareEdge (s.slotOf n) d)) 63)

def lapsedCells (s : State) (n : Nat) : List Cell := s.sharedDue n fun t _ _ => decide (t + (s.rows - 1) * s.spacing ≤ s.lineTime)

def wWrite (v : Nat) : Cell := cs 2 { localV := some v } fun c => { c with decided := true, localV := some 0 }

theorem witness_SharedCells :
    (r0.sharedCell 0 (vBody 0 0) = none ∧ r0.replaying = false ∧ (∀ st ∈ [1, 2, 3, 4], (wShare 400 (cel st)).sharedCell 0 (vBody 0 0) = some (0, cel st)) ∧ ((wShare 400 (cel 1)).slotOf 0).liveCell 3 = some (cel 1) ∧ fld (vBody 0 0) 9 1 = 0 ∧ fld (vBody 1 0) 9 1 ≠ 0 ∧ (wShare 400 (cel 1)).cellEdgePast 0 (cel 1) ((wShare 400 (cel 1)).shareEdge ((wShare 400 (cel 1)).slotOf 0) 0) 0 = false ∧ (wShare 600 (cel 1)).cellEdgePast 0 (cel 1) ((wShare 600 (cel 1)).shareEdge ((wShare 600 (cel 1)).slotOf 0) 0) 0 = true) ∧
    ((wShare 400 (cs 1 { settled := true })).sharedCell 0 (vBody 1 0) = some (0, cs 1 { settled := true }) ∧ ((cs 1 { settled := true }).sideOf 0).settled = true ∧ ((cel 1).sideOf 0).settled = false ∧ (cel 1).combV = none ∧ (wShare 400 (cel 1 fun c => { c with combV := some 0 })).sharedCell 0 (vBody 1 1) = some (0, cel 1 fun c => { c with combV := some 0 }) ∧ (0 : Nat) ≠ fld (vBody 1 1) 10 1 ∧ (cel 1).share.length = 2 ∧ rPEER_SUSPECT ≠ (cel 4).reason ∧ (wShare 400 (cel 4 fun c => { c with reason := rPEER_SUSPECT })).sharedCell 0 (vBody 1 1) = some (0, cel 4 fun c => { c with reason := rPEER_SUSPECT })) ∧
    ((∀ n : Fin 4, combineDue r0 n = [] ∧ lapsedCells r0 n = [] ∧ combineDue (wShare 464 (wWrite 0)) n = (if n.val = 0 then [wWrite 0] else []) ∧ combineDue (wShare 464 (wWrite 1)) n = (if n.val = 0 then [wWrite 1] else []) ∧ lapsedCells (wShare 592 (wWrite 0)) n = (if n.val = 0 then [wWrite 0] else []) ∧ lapsedCells (wShare 592 (cs 2 { settled := true })) n = (if n.val = 0 then [cs 2 { settled := true }] else [])) ∧ ((wShare 464 (wWrite 0)).slotOf 0).liveCell 3 = some (wWrite 0) ∧ (wWrite 0).committed = false ∧ (wWrite 0).share.length = 2 ∧ (wWrite 0).localV = some 0 ∧ (wShare 464 (wWrite 0)).pairSides 0 = [0] ∧ ((wWrite 0).sideOf 0).localV = some 0 ∧ ((wWrite 1).sideOf 0).localV ≠ some 0 ∧ ((wWrite 0).sideOf 0).combV = none) := by decide +kernel

def wWeb (src : Nat) (f : Web → Web := id) : State := { ((on r0 pWEB).setActive WEB.SOURCE src) with web := f r0.web }

def wIdx (z : Option Int) : State := (wWeb 0 fun w => { w with zAt := z, count := 5 }).setActive WEB.ENC_CFG 512

def wLoop : State := ((wWeb 0 fun w => { w with v := 10 ^ 9, capture := some 3 }).setActive WEB.LOOP_CFG (100 + 2 ^ 16 * 3 + 2 ^ 24 * 8)).setReg WEB.RATE_MAX 450000

theorem witness_EncoderAndLoop :
    (r0.power.st ≠ 4 ∧ risingFrom 0 r0.regs = true ∧ risingFrom 0 (wWeb 0).regs = true ∧ (r0.web.encA = false ↔ r0.web.encB ≠ true) ∧ true = ((if r0.web.encA = true then true == false else true != false) != bit (r0.active WEB.ENC_CFG) 8) ∧ false = ((if r0.web.encA = false then false == true else false != true) != bit (r0.active WEB.ENC_CFG) 8) ∧ r0.webOn srcENCODER = false ∧ (wWeb 0).webOn srcENCODER = true) ∧
    (bit (r0.active WEB.ENC_CFG) 9 = false ∧ r0.web.fwd = true ∧ (wWeb 0 fun w => { w with fwd := false }).web.fwd = false ∧ bit ((wIdx none).active WEB.ENC_CFG) 9 = true ∧ (wIdx none).webOn srcENCODER = true ∧ (wIdx none).web.fwd = true ∧ (wIdx none).web.zAt = none ∧ (wIdx (some 5)).web.zAt = some 5 ∧ uInt 32 ((wIdx (some 5)).web.count - 5) = (wIdx (some 5)).active WEB.Z_COUNTS ∧ uInt 32 ((wIdx (some 5)).web.count - 3) ≠ (wIdx (some 5)).active WEB.Z_COUNTS) ∧
    (r0.enabled pWEB = false ∧ wLoop.enabled pWEB = true ∧ wLoop.source ≠ srcPOSTCARD ∧ ((wLoop.takeShadows .loop).takePending .loop).source ≠ srcPOSTCARD ∧ risingFrom 0 wLoop.regs = true) := by decide +kernel

def wTrig : State := (wWeb 1).setReg WEB.TRIG_CFG 2222

def wSend (eth : Bool) : State := (wWeb 0).setReg WEB.PC_CFG (2 ^ 25 + if eth then 2 ^ 24 else 0)

def wCard (k : Option Card) (first : Bool) (more : Web → Web := id) : State := wWeb 2 fun w => more { w with card := k, cardFirst := first }

def cardOf (seq flags : Nat) : List Byte := leBytes 4 seq ++ [0, 0] ++ leBytes 1 flags ++ List.replicate 25 0

def card0 (seq : Nat) : Card := { seq := seq, time := 0, pos := 0, vel := 0, acc := 0 }

theorem witness_TriggersAndPostcards :
    (r0.webOn srcTRIGGER = false ∧ wTrig.webOn srcTRIGGER = true ∧ bit (wTrig.reg WEB.TRIG_CFG) 24 ≠ true ∧ (2221 : Nat) < max 2222 (bits (wTrig.reg WEB.TRIG_CFG) 11 0) ∧ max 2222 (bits (wTrig.reg WEB.TRIG_CFG) 11 0) ≤ 2222 ∧ wTrig.jobsQuiet = true) ∧
    (bit (r0.reg WEB.PC_CFG) 25 = false ∧ bit ((wSend true).reg WEB.PC_CFG) 25 = true ∧ (wSend true).enabled pWEB = true ∧ (wSend true).source ≠ srcPOSTCARD ∧ bit ((wSend true).reg WEB.PC_CFG) 24 = true ∧ bit ((wSend false).reg WEB.PC_CFG) 24 = false) ∧
    (r0.webOn srcPOSTCARD = false ∧ (wCard none true).webOn srcPOSTCARD = true ∧ (wCard none true).web.card = none ∧ bit (fld (cardOf 7 0) 6 1) 2 = false ∧ bit (fld (cardOf 7 4) 6 1) 2 = true ∧ (wCard (some (card0 6)) false).web.card = some (card0 6) ∧ (wCard (some (card0 6)) false).web.cardFirst = false ∧ precedes 6 (fld (cardOf 6 0) 0 4) = false ∧ precedes 6 (fld (cardOf 7 0) 0 4) = true ∧ fld (cardOf 7 0) 0 4 = (6 + 1) % 2 ^ 32 ∧ precedes 6 (fld (cardOf 9 0) 0 4) = true ∧ fld (cardOf 9 0) 0 4 ≠ (6 + 1) % 2 ^ 32) := by decide +kernel

theorem witness_TriggersAndPostcards_2 :
    ((wCard none true).web.coasting = false ∧ (wCard none true).web.lasting.contains 6 = false ∧ (wCard none true fun w => { w with lasting := [6] }).web.lasting.contains 6 = true) := by decide +kernel

theorem witness_StopsAndFaults :
    ((wWeb 0 fun w => { w with stopped := true }).web.stopped = true ∧ r0.power.st < 2 ∧ r0.enabled pWEB = false ∧ (wWeb 0).enabled pWEB = true ∧ (wWeb 0).web.stopped = false ∧ r0.jobsQuiet = true ∧ wLead.jobsQuiet = false ∧ wLead.web.lasting.contains 7 = false ∧ r0.web.lasting = [] ∧ (wWeb 0 fun w => { w with lasting := [7] }).web.lasting ≠ []) ∧
    (bits ((wWeb 0).reg WEB.TL_PERIOD) 15 0 = 4096 ∧ ({ (wWeb 0) with lineTime := 8192 } : State).lineTime % 4096 = 0 ∧ ({ (wWeb 0) with lineTime := 8193 } : State).lineTime % 4096 ≠ 0 ∧ r0.replaying = false ∧ (∀ n : Fin 4, (r0.slotOf n).st ≠ .leading ∧ (r0.slotOf n).st ≠ .writing ∧ (r0.slotOf n).take = none)) := by decide +kernel

def wAlong (target : Nat) : State := (r0.setActive WEB.ALONG target).setReg WEB.TRIG_OUT 0

theorem witness_LineEdges :
    (r0.enabled pWEB = false ∧ (wWeb 0).enabled pWEB = true ∧ (wWeb 0).replaying = false ∧ (wReplay 0 9).replaying = true ∧ ({ r0 with lineTime := 2 ^ 32 - 2 } : State).countLine.lineTime % 2 ^ 32 ≠ 0 ∧ ({ r0 with lineTime := 2 ^ 32 - 1 } : State).countLine.lineTime % 2 ^ 32 = 0 ∧ r0.web.along = sInt 16 (r0.active WEB.ALONG) ∧ r0.web.along < sInt 16 ((wAlong 3).active WEB.ALONG) ∧ sInt 16 ((wAlong 0xFFFF).active WEB.ALONG) < r0.web.along ∧ bit ((wAlong 3).reg WEB.TRIG_OUT) 31 = false ∧ bit ((r0.setReg WEB.TRIG_OUT (2 ^ 31)).reg WEB.TRIG_OUT) 31 = true ∧ r0.web.stopped = false ∧ (wWeb 0 fun w => { w with stopped := true }).web.stopped = true) := by decide +kernel

/-- An axis 0 whose staged TARGET is `t`, with a travel of 20,000 steps. -/
def wAxis (t : Int) (x : Axis := { homed := true, pos := 100 }) : State :=
  { (((on r0 pAXIS).setReg (AXIS.TARGET 0) (uInt 32 t)).setReg (AXIS.TRAVEL 0) 20000) with axes := x :: r0.axes.tail }

theorem witness_NoStepMove :
    (r0.power.st ≠ 4 ∧ (wAxis 100).axes.length = 4 ∧ risingFrom 0 (wAxis 100).regs = true ∧ (wAxis 100).enabled pAXIS = true ∧ ((wAxis 100).axisOf 0).st = 0 ∧ (wAxis 100).jobsQuiet = true ∧ (wAxis 100).web.spliceN = true ∧ (wAxis 100).reg (AXIS.CMIN 0) ≤ (wAxis 100).reg (AXIS.C0 0) ∧ ((wAxis 100).axisOf 0).homed = true ∧ sInt 32 ((wAxis 100).reg (AXIS.TARGET 0)) = ((wAxis 100).axisOf 0).pos ∧ 0 ≤ ((wAxis 100).axisOf 0).pos ∧ ((wAxis 100).axisOf 0).pos ≤ (wAxis 100).reg (AXIS.TRAVEL 0) ∧ sInt 32 ((wAxis 0).reg (AXIS.TARGET 0)) = 0) := by decide +kernel

theorem witness_AxisActions :
    (r0.power.st < 2 ∧ sInt 32 ((wAxis 20000).reg (AXIS.TARGET 0)) - 100 ≠ 0 ∧ (0 : Int) ≤ 20000 ∧ (20000 : Int) ≤ (wAxis 20000).reg (AXIS.TRAVEL 0) ∧ ((wAxis 20000).axisOf 0).hiLatch = false ∧ ¬ (sInt 32 ((wAxis 20001).reg (AXIS.TARGET 0)) ≤ (wAxis 20001).reg (AXIS.TRAVEL 0)) ∧ sInt 32 ((wAxis (-5)).reg (AXIS.TARGET 0)) = -5 ∧ ((wAxis (-5) { loLatch := true }).axisOf 0).loLatch = true ∧ r0.enabled pAXIS = false ∧ (∀ st ∈ [0, 1, 2, 3, 4], ((wAxis 0 { st := st }).axisOf 0).st = st)) := by decide +kernel

def moving (st op dist issued : Nat) (dir : Bool) : Axis := { st := st, op := op, dist := dist, issued := issued, dir := dir, c := 256000, c0 := 1000, cmin := 500, pos := 50, homed := op != 1 }

def wSplice (x : Axis) : State := ((wAxis 0 x).setActive AXIS.SPLICE_CFG (2 ^ 31)).setActive AXIS.SAFE_POS 20

theorem witness_AxisMotion :
    (r0.enabled pAXIS = false ∧ (wAxis 0).enabled pAXIS = true ∧ (wAxis 0).power.stopped.contains 6 = false ∧ ({ r0 with power := { r0.power with stopped := [6] } } : State).power.stopped.contains 6 = true ∧ (wAxis 0 (moving 1 0 3 0 true)).axisOf 0 = moving 1 0 3 0 true ∧ (moving 1 0 3 0 true).st ≠ 0 ∧ -2 ^ 31 < (moving 1 0 3 0 true).pos ∧ (moving 1 0 3 0 true).pos < 2 ^ 31 - 1 ∧ (moving 1 0 3 0 true).issued + 1 < (moving 1 0 3 0 true).dist ∧ (moving 1 0 3 0 true).n < 2 ^ 20 ∧ (moving 2 1 3 2 false).dist ≤ (moving 2 1 3 2 false).issued + 1 ∧ (moving 1 0 3 2 true).dist ≤ (moving 1 0 3 2 true).issued + 1 ∧ (moving 1 0 3 2 true).op ≠ 3 ∧ (moving 1 0 3 2 true).thenSplice = false) := by decide +kernel

theorem witness_AxisMotion_2 :
    ((wAxis 0 { homed := true, pos := 5 } |>.setReg (AXIS.HOME_CFG 0) (10 * 2 ^ 16)).loMasked 0 = true ∧ (wAxis 0 { homed := true, pos := 11 } |>.setReg (AXIS.HOME_CFG 0) (10 * 2 ^ 16)).loMasked 0 = false ∧ (wAxis 0 (moving 2 1 3 0 false)).loMasked 0 = true ∧ ((((wAxis 0).axisOf 0).limit true).atLeast 0).level = false ∧ ((((wAxis 0).axisOf 0).limit true).atLeast 0).win = 0 ∧ ((((wAxis 0 { hi := { level := true } }).axisOf 0).limit true).atLeast 9).level = true ∧ ((((wAxis 0 { lo := { age := 3000, win := 2000 } }).axisOf 0).limit false).atLeast 4).win = 1000 ∧ ((((wAxis 0 { lo := { age := 3000, win := 2000 } }).axisOf 0).limit false).atLeast 4).level = false ∧ r0.axisEn 0 = 0 ∧ (moving 2 1 3 0 false).st = 2 ∧ bit (((wAxis 0).setReg (AXIS.CFG 0) 4).axisCfg 0) 2 = true ∧ (wAxis 0 { (moving 1 0 3 0 true) with cfg := some 7 }).axisCfg 0 = 7) ∧
    ((wSplice {}).jobsQuiet = true ∧ r0.spliceEn = false ∧ (wSplice {}).spliceEn = true ∧ (wSplice {}).spliceAxis = 0 ∧ (wSplice { homed := true, pos := 20 }).safePos = 20 ∧ (20 : Int) ≤ (wSplice {}).safePos ∧ (wSplice {}).safePos < 21) := by decide +kernel

/-- Zone 12 of 16, which computes with the figures of the worked example of R439. -/
def wZone (q : Zone) : State := { (on r0 pLOOP) with loops := { r0.loops with zone := modAt r0.loops.zone 12 fun _ => q } }

theorem witness_ControlLaw :
    (r0.power.st < 2 ∧ r0.loops.zone.length = 64 ∧ ((bits (r0.reg (LOOP.OUT_LIM 0)) 14 0 : Int) ≤ bits (r0.reg (LOOP.OUT_LIM 0)) 30 16)) := by decide +kernel

def zoneRun : Zone := { st := .run, fresh := true, toggled := true }

theorem witness_ZonesAtBoundaries :
    ((((r0.bankSwap.takeShadows .zone).takePending .zone).bump LOOP.SAMPLES 1).enabled pLOOP = false ∧ ((((wZone {}).bankSwap.takeShadows .zone).takePending .zone).bump LOOP.SAMPLES 1).enabled pLOOP = true ∧ r0.loops.pendingSwap = false ∧ ({ r0 with loops := { r0.loops with pendingSwap := true } } : State).loops.bank < 2 ∧ r0.loops.swapLate = false ∧ (wZone zoneRun).loops.zone.length = 64 ∧ (wZone zoneRun).zoneOf 12 = zoneRun ∧ zoneRun.asks = [] ∧ (12 : Nat) < (wZone {}).zones ∧ r0.enabled pLOOP = false ∧ (wZone {}).enabled pLOOP = true ∧ (r0.setActive LOOP.SAMPLE_CFG (2 ^ 16 * 16)).zones ≤ 63 ∧ r0.replaying = false) ∧
    (({ r0 with loops := { r0.loops with pendingSwap := true, swapLate := true } } : State).loops.swapLate = true ∧ (wZone { asks := [(2, false)], st := .hold }).replaying = false) := by decide +kernel

theorem witness_LostFeedback :
    (((List.range r0.zones).filter fun z => (r0.zoneOf z).st == .run && (r0.zoneOf z).lostCause != 0) = [] ∧ ((List.range (wZone { st := .run, miss := 3 }).zones).filter fun z => ((wZone { st := .run, miss := 3 }).zoneOf z).st == .run && ((wZone { st := .run, miss := 3 }).zoneOf z).lostCause != 0) = [12] ∧ ((List.range (wZone { st := .run, still := 8 }).zones).filter fun z => ((wZone { st := .run, still := 8 }).zoneOf z).st == .run && ((wZone { st := .run, still := 8 }).zoneOf z).lostCause != 0) = [12] ∧ ((List.range (wZone { st := .hold, held := 9999 }).zones).filter fun z => decide (((wZone { st := .hold, held := 9999 }).zoneOf z).st = .hold) && decide ((wZone { st := .hold, held := 9999 }).holdSamples ≤ ((wZone { st := .hold, held := 9999 }).zoneOf z).held)) = [12] ∧ r0.enabled pSAMPLE = false ∧ (on r0 pSAMPLE).enabled pSAMPLE = true ∧ r0.samples.length = 16 ∧ risingFrom 0 r0.regs = true ∧ r0.sampleRun.contains 3 = false ∧ ({ r0 with sampleRun := [3] } : State).sampleRun.contains 3 = true) := by decide +kernel

/-- A return message of 32 bytes. -/
def rmsg (bs : List Byte) : List Byte := bs ++ List.replicate (32 - bs.length) 0

def rEcho (row strip status line sealV : Nat) : List Byte := rmsg (leBytes 1 1 ++ leBytes 1 row ++ leBytes 1 strip ++ leBytes 1 status ++ leBytes 4 line ++ leBytes 4 sealV)

def wOut (echo : Option Nat) (lost : Bool := false) : Seg := { lt := 10, data := { row := 1, strip := 2, codes := [0] }, echo := echo, lost := lost }

def wSegs (g : Seg) : State := { r0 with segs := [g] }

def rHealth (flags number first count : Nat) : List Byte := rmsg ([2, 3] ++ leBytes 1 flags ++ [0] ++ leBytes 2 number ++ leBytes 2 first ++ leBytes 4 count)

def wGath (g : Option HealthReport) (last : Option Nat) : State := { r0 with jl := { r0.jl with gather := g, lastReport := last } }

def hMsg : HealthMsg := { row := 3, failed := true, first := 9, count := 2 }

def hRep (n : Nat) : HealthReport := { number := n, full := false, msgs := [hMsg] }

def rZone (z flags seq : Nat) : List Byte := rmsg ([3] ++ leBytes 1 z ++ leBytes 1 flags ++ [0] ++ leBytes 2 seq ++ leBytes 2 1 ++ leBytes 2 2 ++ leBytes 2 3 ++ leBytes 2 4)

def wZSeq (p : Nat) : State := { (r0.setActive LOOP.SAMPLE_CFG (2 ^ 16 * 16)) with jl := { r0.jl with zoneSeq := [(12, p)] } }

def rLink (n flags uncorr swap : Nat) : List Byte := rmsg ([4] ++ leBytes 1 n ++ leBytes 1 flags ++ [0] ++ leBytes 2 uncorr ++ leBytes 2 swap)

/-- Lane 8 of head group 0 in a link state, and a takeover of strip 2. -/
def wJlane (l : Lane) (k : List Takeover) : State := { (r0.setLane 8 fun _ => l) with jl := { r0.jl with takeovers := k } }

def swap8 : Takeover := { strip := 2, fromLane := 2, toLane := 8, swapId := 77 }

theorem witness_ReturnMessages :
    (r0.power.st ≠ 4 ∧ echoOk (rEcho 5 2 0 10 0) = false ∧ echoOk (rEcho 1 2 0 10 7) = true ∧ r0.segs = [] ∧ (wSegs (wOut none)).segs = [] ++ wOut none :: [] ∧ (wOut none).data.row = fld (rEcho 1 2 0 10 7) 1 1 ∧ (wOut none).data.strip = fld (rEcho 1 2 0 10 7) 2 1 ∧ (wOut none).lt % 2 ^ 32 = fld (rEcho 1 2 0 10 7) 4 4 ∧ (wOut (some 0)).echo.isSome = true ∧ (wOut none true).lost = true ∧ r0.lineTime < (wOut none).lt + 4 ∧ (wOut none).lt + 4 ≤ ({ (wSegs (wOut none)) with lineTime := 14 } : State).lineTime ∧ (wOut none).echo = none ∧ fld (rEcho 1 2 1 10 7) 3 1 = 1 ∧ fld (rEcho 1 2 0 10 (wOut none).data.sealOf) 8 4 = (wOut none).data.sealOf ∧ fld (rEcho 1 2 0 10 ((wOut none).data.sealOf + 1)) 8 4 ≠ (wOut none).data.sealOf) := by decide +kernel

theorem witness_ReturnMessages_2 :
    (healthOk (rHealth 8 7 9 2) = false ∧ healthOk (rHealth 2 7 9 2) = true ∧ healthOk (rHealth 3 7 9 2) = true ∧ bit (fld (rHealth 2 7 9 2) 2 1) 0 = false ∧ r0.jl.gather = none ∧ (hRep 6).number ≠ fld (rHealth 2 7 9 2) 4 2 ∧ (hRep 7).number = fld (rHealth 2 7 9 2) 4 2 ∧ bit (fld (rHealth 3 7 9 2) 2 1) 0 = true ∧ fld (rHealth 3 7 9 2) 4 2 = (6 + 1) % 2 ^ 16 ∧ (wGath none (some 7)).jl.lastReport = some (fld (rHealth 3 7 9 2) 4 2) ∧ fld (rHealth 3 7 9 2) 4 2 ≠ (4 + 1) % 2 ^ 16 ∧ r0.replaying = false) ∧
    (zoneOk (rZone 64 0 5) = false ∧ zoneOk (rZone 63 0 5) = true ∧ zoneOk (rZone 12 0 5) = true ∧ bits ((wZSeq 4).active LOOP.SAMPLE_CFG) 22 16 ≤ fld (rZone 63 0 5) 1 1 ∧ fld (rZone 12 0 5) 1 1 < bits ((wZSeq 4).active LOOP.SAMPLE_CFG) 22 16 ∧ keyGet (wZSeq 4).jl.zoneSeq 12 = some 4 ∧ fld (rZone 12 0 5) 4 2 = (4 + 1) % 2 ^ 16 ∧ keyGet (wZSeq 3).jl.zoneSeq 12 = some 3 ∧ fld (rZone 12 0 5) 4 2 ≠ (3 + 1) % 2 ^ 16) := by decide +kernel

theorem witness_ReturnMessages_3 :
    (linkOk (rLink 18 0 1 0) = false ∧ linkOk (rLink 8 0 1 0) = true ∧ linkOk (rLink 8 3 1 77) = true ∧ bit (fld (rLink 8 0 1 0) 2 1) 0 = false ∧ bit (fld (rLink 8 1 1 0) 2 1) 0 = true ∧ (r0.laneOf 8).link ≠ hUP ∧ (r0.laneOf 8).link ≠ hSPARE ∧ r0.jl.takeovers = [] ∧ (r0.laneOf 8).link ≠ hALIGN ∧ ((wJlane { link := 2, rxLock := true, tstate := 6 } []).laneOf 8).link = hALIGN ∧ ((wJlane { link := 2, rxLock := true, tstate := 6 } []).laneOf 8).rxLock = true ∧ ((wJlane { link := 2, rxLock := true, tstate := 6 } []).laneOf 8).tstate = 6 ∧ ((wJlane { link := 2, rxLock := true } []).laneOf 8).tstate ≠ 6 ∧ r0.enabled pJLINK = false ∧ (on r0 pJLINK).enabled pJLINK = true ∧ (8 : Nat) < r0.lanes.lane.length ∧ (wJlane { link := 4 } [swap8]).jl.takeovers = [swap8] ∧ swap8.toLane = 8 ∧ swap8.swapId = fld (rLink 8 3 1 77) 6 2 ∧ ((wJlane { link := 4 } [swap8]).laneOf 8).link = hSPARE ∧ (wJlane { link := 4 } [swap8]).segs = [] ∧ bit (fld (rLink 8 3 1 77) 2 1) 1 = true ∧ fld (rmsg [0]) 0 1 = 0 ∧ fld (rmsg [9]) 0 1 ≠ 0) := by decide +kernel

def wLane (n : Nat) (l : Lane) : State := r0.setLane n fun _ => l

/-- A codeword whose symbol 1 is `v`: a multiple of the generator, with zeros before and after it. -/
def cwOf (v : Nat) : List (BitVec 2) :=
  (([0] ++ (1 :: rsTaps).map (gfMul v) ++ List.replicate 512 0).flatMap symbolGray).map (BitVec.ofNat 2)

/-- Levels of sixteen wrong symbols behind zeros. -/
def cwBad : List (BitVec 2) := List.replicate 2640 0 ++ (List.range 80).map fun i => BitVec.ofNat 2 (if i % 5 = 0 then i / 5 % 3 + 1 else 0)

/-- Header and wrong symbols of what a lane with the pair as it is and no precoding receives. -/
def rxOf (ls : List (BitVec 2)) : Option (Nat × Nat) := (received false false 0 (ls.map fun b => b.toNat)).1.map fun x => (x.1, x.2.2)

/-- A lane that seeks or holds lock. -/
def wSeek (lock : Bool) (cfg : Nat) (link : Nat := 3) (head : Bool := false) : Lane :=
  { tstate := 6, link := link, rxLock := lock, linkCfg := cfg, headLock := head }

/-- Strip 2 on lane 2, which is UP, with JLINK on; lane 8 in a link state. -/
def wHead (link8 : Nat) (k : List Takeover := []) : State :=
  let s : State := ((on r0 pJLINK).setActive (JLINK.LANE_MAP 2) 2).setActive SPLIT.ROW_CFG (2 ^ 16 * 16 + 0x520)
  { ((s.setLane 2 fun _ => { link := 3, rxLock := true }).setLane 8 fun _ => { link := link8 }) with jl := { r0.jl with takeovers := k } }

theorem witness_LanesLost :
    (rxOf cwBad = none) ∧
    (rxOf (cwOf 0) = some (0, 0) ∧ rxOf (cwOf 256) = some (0x40000, 0) ∧ rxOf (cwOf 512) = some (0x80000, 0) ∧ rxOf (cwOf 768) = some (0xC0000, 0) ∧ rxOf (cwOf 1) = some (0x400, 0) ∧ hdrType 0 = 0 ∧ hdrType 0x40000 = 1 ∧ hdrType 0x80000 = 2 ∧ hdrType 0xC0000 = 3 ∧ headerValid 3 0x400 = false ∧ headerValid 3 0 = true ∧ headerValid 20 0xC0000 = false) ∧
    ((r0.laneOf 3).tstate ≠ 6 ∧ (∀ n : Fin 24, n.val = 3 ∨ n.val = 20 → (wLane n (wSeek true 0x20)).rxInverted n = false ∧ ((wLane n (wSeek true 0x20)).laneOf n).precodeRx = false ∧ ((wLane n (wSeek true 0x20)).laneOf n).rxLast = 0 ∧ ((wLane n (wSeek true 0x20)).laneOf n).tstate = 6 ∧ ((wLane n (wSeek true 0x20)).laneOf n).link = 3 ∧ ((wLane n (wSeek true 0x20)).laneOf n).rxLock = true ∧ ((wLane n (wSeek true 0x20)).laneOf n).badRun + 1 < (wLane n (wSeek true 0x20)).lockBad n ∧ (wLane n (wSeek true 0)).lockBad n ≤ ((wLane n (wSeek true 0)).laneOf n).badRun + 1) ∧ (wLane 3 (wSeek false 2 2)).rxInverted 3 = false ∧ ((wLane 3 (wSeek false 2 2)).laneOf 3).rxLock = false ∧ ((wLane 3 (wSeek false 2 2)).laneOf 3).goodRun + 1 < (wLane 3 (wSeek false 2 2)).lockGood 3 ∧ (wLane 3 (wSeek false 0 2)).lockGood 3 ≤ ((wLane 3 (wSeek false 0 2)).laneOf 3).goodRun + 1 ∧ ((wLane 3 (wSeek false 0 2)).laneOf 3).link = hALIGN ∧ ((wLane 3 (wSeek false 0 2)).laneOf 3).headHere = false ∧ rxOf cwBad = none) ∧
    ((1 : Nat) = 1 ∨ (1 : Nat) = 2) := by decide +kernel

theorem witness_LanesLost_2 :
    ((wLane 3 { idleRun := 1023 }).freezeRun < ((wLane 3 { idleRun := 1023 }).laneOf 3).idleRun + 1 ∧ bit (r0.reg LANE.ADAPT_CFG) 16 = false ∧ ¬ (r0.freezeRun < (r0.laneOf 3).idleRun + 1) ∧ ((wLane 3 { frozen := true }).laneOf 3).frozen = true) ∧
    ((r0.laneOf 3).tstate ≠ 6 ∧ ((wLane 3 { tstate := 6, link := 2 }).laneOf 3).tstate = 6 ∧ ((wLane 3 { tstate := 6, link := 2 }).laneOf 3).link = 2 ∧ ((wLane 3 { tstate := 6, link := 2 }).laneOf 3).headHere = false ∧ ((wLane 3 { tstate := 6, link := 2, headHere := true }).laneOf 3).headHere = true) ∧
    ((r0.laneOf 2).link ≠ hUP ∧ (r0.laneOf 2).link ≠ hSPARE ∧ ((wHead 4).laneOf 8).link = hSPARE ∧ (wHead 4).jl.takeovers = [] ∧ ((wHead 4).laneOf 2).link = hUP ∧ (wHead 4).stripOfLane 2 = some 2 ∧ (wHead 0).stripOfLane 2 = some 2 ∧ (wHead 0).spares (stripGroup 2) = [] ∧ (wHead 4).spares (stripGroup 2) = [8] ∧ bit ((wHead 4).reg (CTRL pJLINK)) 0 = true ∧ bit ((wHead 4).reg (CTRL pJLINK)) 1 = false ∧ (wHead 4).jl.swapId < 0xFFFF ∧ (wHead 4 [swap8]).jl.takeovers = [swap8] ∧ swap8.strip = 2 ∧ (wHead 4 [swap8]).spares 0 = []) := by decide +kernel

theorem witness_LanesLost_3 :
    ((((wHead 4 [swap8]).setLane 7 fun _ => { link := 4 }).spares 0) = [7]) := by decide +kernel

def wBring (n : Nat) (l : Lane) : State := (on r0 pLANE).setLane n fun _ => l

def wOrd (known : Bool) (s : State) : State := s.setOrder 0 fun _ => { known := known }

def wEye (s : State) (dwell : Nat) : State := { s with lanes := { s.lanes with es := some (3, dwell) } }

def wPair (n : Nat) (l : Lane) (p : RxPair) : State := (wBring n l).setPair n fun _ => p

/-- Fields of a training frame: requests and statuses below bit 28, TX_ID, and SEEN_ID with SEEN_OK where given. -/
def tFields (low txId : Nat) (seen : Nat := 0) : Nat := low + txId * 2 ^ 28 + seen * 2 ^ 33

/-- SEEN_ID 3 with SEEN_OK. -/
def seen3 : Nat := 2 ^ 5 + 3

def wTrain (l : Lane) (frames : Nat) (o : LaneOrder) : State := (wPair 3 l { cdr := true, frames := frames }).setOrder 0 fun _ => o

/-- A lane in DETECT mode that seeks frames. -/
def wFind (frames : Nat) (o : LaneOrder := {}) : State := wTrain { tstate := 2, detect := true } frames o

def tFrame (low txId : Nat) (seen : Nat := 0) : Instr := .trainingFrame 3 false (BitVec.ofNat 48 (tFields low txId seen)) (BitVec.ofNat 16 (frameCheck (tFields low txId seen)))

/-- A group whose order is not known, but noted as reversed: pair 3 then belongs to lane 5. -/
def wTurned : State := (wTrain {} 2 { rxRev := true }).setLane 5 fun _ => { tstate := 2, detect := true }

/-- A lane whose orders are both known. -/
def wBoth : State := wFind 2 { known := true, txKnown := true }

def wWait (l : Lane) : State := (wTrain l 3 { known := true }).setReg (LANE.TX_NOW 3) 0x00400000

theorem witness_LaneBringUp :
    (r0.power.st ≠ 4 ∧ r0.enabled pLANE = false ∧ (wBring 3 { link := 1 }).enabled pLANE = true ∧ ((wBring 3 { link := 1 }).laneOf 3).link = 1 ∧ ((wBring 3 { link := 4 }).laneOf 3).link = 4 ∧ ((wBring 3 { link := 5 }).laneOf 3).link = 5 ∧ ((wBring 3 { link := 6 }).laneOf 3).link = 6 ∧ ((wBring 20 { link := 5 }).laneOf 20).tstate = 0 ∧ ({ r0 with life := { r0.life with st := 4 } } : State).life.st = 4 ∧ r0.life.st ≠ 4 ∧ ((wBring 24 { tstate := 6 }).laneOf 24).tstate = 6 ∧ ((wBring 24 { tstate := 7 }).laneOf 24).tstate = 7 ∧ bit (r0.reg (LANE.LCFG 24)) 0 = false ∧ bit (r0.reg (LANE.LCFG 3)) 0 = true ∧ ((wOrd true (wBring 3 {})).orderOf (laneGroup 3)).known = true ∧ ((wOrd false (wBring 3 {})).orderOf (laneGroup 3)).known = false ∧ (3 : Nat) ∈ groupLanes (laneGroup 3) ∧ (3 : Nat) < r0.lanes.lane.length ∧ bit (BitVec.toNat (2 : BitVec 4)) (laneGroup 9) = true ∧ bit (BitVec.toNat (2 : BitVec 4)) (laneGroup 8) = false ∧ ((wBring 9 { link := 5 }).laneOf 9).link = 5) ∧
    ((∀ x : Fin 25, r0.lanes.es.isNone = true ∧ (x.val < 24 → (r0.laneOf x).link ≠ 3 ∧ (r0.laneOf x).link ≠ 4)) ∧ (wEye (wBring 3 { tstate := 6 }) 11).lanes.es = some (3, 11) ∧ ((wBring 3 { tstate := 6, link := 3 }).laneOf 3).link = 3 ∧ ((wBring 3 { link := 5 }).laneOf 3).link = 5 ∧ (r0.laneOf 3).tstate ≠ 1 ∧ ((wBring 3 { tstate := 1 }).laneOf 3).tstate = 1 ∧ (sInt 16 (BitVec.toNat (3000 : BitVec 16))).natAbs ≤ 3000 ∧ (sInt 16 (BitVec.toNat (-3000 : BitVec 16))).natAbs ≤ 3000 ∧ 3000 < (sInt 16 (BitVec.toNat (3001 : BitVec 16))).natAbs ∧ ((wBring 3 { tstate := 1, detect := true }).laneOf 3).detect = true ∧ ((wBring 3 { tstate := 1 }).laneOf 3).detect = false) := by decide +kernel

theorem witness_LaneBringUp_2 :
    (((wPair 3 { tstate := 1 } { cdr := true }).pairOf ((wPair 3 { tstate := 1 } { cdr := true }).rxPhys 3)).cdr = true ∧ ((wPair 3 { tstate := 1 } { cdr := true }).laneOf 3).detect = false ∧ ((wBring 3 { tstate := 5, detect := true }).laneOf 3).tstate = 5 ∧ ((wBring 3 { tstate := 5, detect := true }).laneOf 3).detect = true ∧ ((wBring 3 { tstate := 3 }).laneOf 3).tstate = 3 ∧ (r0.laneOf 3).tstate = 0 ∧ ((wBring 3 { tstate := 7 }).laneOf 3).tstate = 7) := by decide +kernel

theorem witness_LaneBringUp_3 :
    ((3 : Nat) < r0.lanes.pair.length ∧ frameCheck 7 ≠ 0 ∧ (∀ x ∈ [tFields 0 3, tFields 0 5, tFields 0 4, tFields 1 3, tFields 0 3 seen3], frameCheck x = (BitVec.ofNat 16 (frameCheck x)).toNat ∧ x = (BitVec.ofNat 48 x).toNat) ∧ ((wTrain {} 0 {}).laneOf 3).detect = false ∧ ((wFind 0).laneOf 3).detect = true ∧ ((wFind 0).laneOf 3).tstate = 2 ∧ ((wFind 0).orderOf (laneGroup 3)).rxRev = false ∧ ((wFind 0).pairOf 3).frames = 0 ∧ ((wFind 1).pairOf 3).frames < 2 ∧ ((wFind 3).pairOf 3).frames = 3 ∧ ((wFind 2).pairOf 3).polInv = false ∧ ((wFind 2).orderOf (laneGroup 3)).known = false ∧ ((wFind 0 { known := true }).orderOf (laneGroup 3)).known = true ∧ bits (tFields 0 3) 32 28 = txIdOf 3 ∧ bits (tFields 0 5) 32 28 ≠ txIdOf 3 ∧ bits (tFields 0 5) 32 28 = txIdOf (mirror 3) ∧ 4 ≤ r0.lanes.order.length ∧ bits (tFields 0 4) 32 28 ≠ txIdOf 3 ∧ bits (tFields 0 4) 32 28 ≠ txIdOf (mirror 3) ∧ ((wFind 2).laneOf (mirror 3)).detect = false ∧ (((wFind 2).setLane 5 fun _ => { tstate := 2, detect := true }).laneOf (mirror 3)).detect = true ∧ (((wFind 2).setLane 5 fun _ => { tstate := 2, detect := true }).laneOf (mirror 3)).tstate = 2) := by decide +kernel

theorem witness_LaneBringUp_4 :
    ((wTurned.orderOf (laneGroup 3)).known = false ∧ (wTurned.orderOf (laneGroup 3)).rxRev = true ∧ (wTurned.laneOf (mirror 3)).detect = true ∧ (wTurned.laneOf (mirror 3)).tstate = 2 ∧ (wTurned.laneOf 3).detect = false ∧ (wTurned.pairOf 3).frames = 2 ∧ (wTurned.pairOf 3).polInv = false ∧ (wBoth.laneOf 3).tstate = 2 ∧ (wBoth.orderOf (laneGroup 3)).txKnown = true ∧ (wBoth.orderOf (laneGroup 3)).txRev = false ∧ bit (tFields 0 3 seen3) 38 = true ∧ bits (tFields 0 3 seen3) 37 33 = txIdOf 3 ∧ bit (tFields 0 3 seen3) 8 = false ∧ bits (tFields 0 3 seen3) 7 0 = 0 ∧ bits (tFields 0 3 seen3) 32 28 = txIdOf 3) := by decide +kernel

theorem witness_LaneBringUp_5 :
    (((wWait { tstate := 4, detect := true }).laneOf 3).tstate = 4 ∧ ((wWait { tstate := 4, detect := true }).laneOf 3).detect = true ∧ ((wWait { tstate := 4, detect := true }).orderOf (laneGroup 3)).rxRev = false ∧ ((wWait { tstate := 4, detect := true }).orderOf (laneGroup 3)).known = true ∧ 2 ≤ ((wWait { tstate := 4, detect := true }).pairOf 3).frames ∧ ((wWait { tstate := 4, detect := true }).pairOf 3).polInv = false ∧ bit (tFields 0 3) 38 = false ∧ bit (tFields 0 3) 8 = false ∧ bits (tFields 0 3) 7 0 = 0 ∧ bit (tFields 0 3) 12 = false ∧ bits ((wWait { tstate := 4, detect := true }).laneOf 3).txStatus 1 0 = 0 ∧ bits (tFields 1 3) 7 0 = 4 ^ 0 ∧ bits (tFields (2 * 16) 3) 7 0 = 2 * 4 ^ 2 ∧ tapsOk 0x00400000 = true) ∧
    (bit (BitVec.toNat (0 : Word) &&& esCtrlMask) 31 = false ∧ bit (BitVec.toNat (0x80030000 : Word) &&& esCtrlMask) 31 = true ∧ r0.lanes.es = none ∧ (wEye r0 11).lanes.es.isSome = true ∧ r0.esNoSignal (bits (BitVec.toNat (0x80030000 : Word) &&& esCtrlMask) 20 16) = true ∧ (wPair 3 { tstate := 6 } { cdr := true }).esNoSignal (bits (BitVec.toNat (0x80030000 : Word) &&& esCtrlMask) 20 16) = false) := by decide +kernel

/-- Device 0 stands at position 1 of 3, between device 5 to the west and device 9 to the east. -/
def wChain : State := ((((on r0 pPEER).setActive PEER.CHAIN_CFG 0x31).setActive (PEER.POS_DEV 0) 5).setActive (PEER.POS_DEV 1) 0).setActive (PEER.POS_DEV 2) 9

/-- The west side, whose lane 18 is in link state `link` with its receiver locked. -/
def wWest (link : Nat) (d : Side := {}) : State := { (wChain.setLane 18 fun _ => { tstate := 6, link := link, rxLock := true }) with peers := { r0.peers with side := [d, {}] } }

def z640 : List Byte := List.replicate 640 0

def hHello : BitVec 20 := 0x801FF

def hData (seq : Nat) : BitVec 20 := BitVec.ofNat 20 (peerHeader 0 seq 511)

def helloOf (dev pos locks : Nat) : List Byte := leBytes 2 dev ++ leBytes 1 pos ++ [0] ++ leBytes 1 locks ++ List.replicate 635 0

def wUp (ahead : List (Nat × List Byte) := []) : State := wWest 3 { up := true, ahead := ahead }

def wMark : List Byte := peerMessage 2 0 0x4000 5 (verdictBody 1 3 2 4 0)

def wTo (dev : Nat) : List Byte := peerMessage 4 0 dev 5 (sign 1 3 5)

/-- Fragments of an earlier letter wait in the queue of the west side. -/
def wWaitF : State := wWest 3 { up := true, queue := [(6, peerMessage 6 0 5 0 (leBytes 4 0 ++ leBytes 4 1 ++ [1]))] }

def frag (off total : Nat) (bs : List Byte) : List Byte := leBytes 4 off ++ leBytes 4 total ++ bs

def wForw (d : Side := {}) : State := { (on (wWest 3 d) pHBM) with act := ((wWest 3 d).setActive PEER.FWD_SIZE 1).act }

theorem witness_ShapeKept : wellShaped r0 ∧ step r0 = .next r0.tick := by
  refine ⟨?_, rfl⟩
  unfold wellShaped
  decide +kernel

theorem witness_PeerSides :
    ((r0.laneOf 18).link ≠ 2 ∧ (r0.laneOf 18).link ≠ 3 ∧ (r0.laneOf 18).link ≠ 4 ∧ 2 ≤ ((wWest 2).laneOf 18).link ∧ ((wWest 2).laneOf 18).link ≤ 4 ∧ (r0.laneOf 18).rxLock = false ∧ ((wWest 2).laneOf 18).rxLock = true ∧ (wWest 2).helloValid 0 (helloOf 6 0 7) = false ∧ (wWest 2).helloValid 0 (helloOf 5 0 7) = true ∧ fld (helloOf 5 0 7) 4 1 = 7 ∧ ((wWest 2).sideOf 0).unacked = [] ∧ ((wWest 2).sideOf 0).queue = [] ∧ (wWest 2).peers.forward = [] ∧ ((wWest 3 { up := true }).sideOf 0).up = true ∧ (∀ j : Fin 3, ((wWest 3 { up := true }).laneOf (sideBase 0 + j)).link ≠ 2) ∧ ((wWest 2).sideOf 0).up = false ∧ ((wWest 2).sideLanes 0 3).length < (wWest 2).activeLanes 18 ∧ (wWest 2).fillDue 18 = false ∧ ({ (wWest 2) with lanes := { (wWest 2).lanes with lane := modAt (wWest 2).lanes.lane 18 fun l => { l with txPos := 1023 } } } : State).fillDue 18 = true ∧ hdrType hHello.toNat = 2 ∧ hdrType (hData 5).toNat ≠ 2 ∧ (r0.setReg (CTRL pPEER) 0).enabled pPEER = false ∧ ((r0.setReg (CTRL pPEER) 0).sideOf 0).up = false ∧ (wWest 2).enabled pPEER = true ∧ (∀ j : Fin 3, j.val ≠ laneIndex 18 → ((wWest 2).laneOf (sideBase 0 + j)).link ≠ 2) ∧ (wWest 2).peers.side.length = 2 ∧ wChain.helloValid 1 (helloOf 9 2 0) = true ∧ wChain.helloValid 1 (helloOf 9 1 0) = false) := by decide +kernel

theorem witness_PeerSides_2 :
    (((wWest 2).laneOf 18).tstate = 6 ∧ ((wWest 2).laneOf 18).link = 2 ∧ bit ((wWest 2).sideOf (laneSide 18)).locks 0 = false ∧ bit ((wWest 2 { locks := 1 }).sideOf (laneSide 18)).locks 0 = true) := by decide +kernel

theorem witness_PeerSides_3 :
    (((wUp).laneOf 18).link = 3 ∧ ((wUp).sideOf 0).up = true ∧ ((wUp).sideOf 0).ack < 512 ∧ hdrSeq (hData 32).toNat = 32 ∧ hdrType (hData 32).toNat = 0 ∧ hdrType hHello.toNat ≠ 0 ∧ (0 + 1024 - ((wUp).sideOf 0).ack - 1) % 512 = 0 ∧ ((wUp).sideOf 0).ahead = [] ∧ (32 + 1024 - ((wUp).sideOf 0).ack - 1) % 512 = 32 ∧ (33 + 1024 - ((wUp).sideOf 0).ack - 1) % 512 = 33 ∧ (∃ a ∈ ((wUp [(4, [])]).sideOf 0).ahead, a.1 = 4) ∧ fld z640 0 1 = 0 ∧ 8 ≤ wMark.length ∧ messageOk wMark = true ∧ 8 + fld wMark 6 2 = wMark.length ∧ wMark.length % 8 = 0 ∧ messageOk (wMark ++ List.replicate 8 0) = true ∧ bit (fld wMark 2 2) 14 = true ∧ bit (fld (peerMessage 3 0 0x8000 5 []) 2 2) 15 = true ∧ bit (fld (wTo 9) 2 2) 14 = false ∧ bit (fld (wTo 9) 2 2) 15 = false ∧ bits (fld (wTo 0) 2 2) 9 0 = wChain.deviceNo ∧ bits (fld (wTo 9) 2 2) 9 0 ≠ wChain.deviceNo ∧ wChain.routeSide (bits (fld (wTo 9) 2 2) 9 0) = some 1 ∧ wChain.routeSide (bits (fld (wTo 8) 2 2) 9 0) = none ∧ (wChain.sideOf 1).up = false ∧ wChain.routeSide (bits (fld (wTo 5) 2 2) 9 0) = some 0 ∧ (r0.sideOf 0).up = false) := by decide +kernel

theorem witness_PeerSides_4 :
    (((wWest 3 { up := true, unacked := [(4, [1])], peerDev := 5 }).sideOf 0).up = true ∧ (wWest 3 { up := true, unacked := [(4, [1])] }).sideLanes 0 3 = [18] ∧ 9 ≤ (List.replicate 9 (0 : Byte)).length ∧ r0.enabled pLEDGER = false ∧ r0.led.held.length < 1024 ∧ (List.replicate 624 (0 : Byte)).length ≤ 624) := by decide +kernel

theorem witness_PeerSides_5 :
    ((wForw).served ((wForw).fragRegions 0 5 (frag 0 2 [1, 2])) = true ∧ (wForw).served ((wForw).fragRegions 0 5 (frag 0 3 [1, 2])) = true ∧ ((wForw).setReg (CTRL pHBM) 0).served (((wForw).setReg (CTRL pHBM) 0).fragRegions 0 5 (frag 0 2 [1, 2])) = false ∧ wWaitF.fragmentsWait = true ∧ r0.fragmentsWait = false ∧ r0.peers.forward = [] ∧ r0.served (r0.ringRegions r0.led.written 1) = false ∧ (on r0 pLEDGER).enabled pLEDGER = true ∧ (on r0 pLEDGER).served ((on r0 pLEDGER).ringRegions 0 1) = false ∧ (on r0 pLEDGER).led.held = [] ∧ (on (on r0 pLEDGER) pHBM).served ((on (on r0 pLEDGER) pHBM).ringRegions 0 1) = true ∧ fld (frag 8 20 [1]) 0 4 ≠ 0 ∧ ((wForw).sideOf 0).partials = [] ∧ fld (frag 0 2 [1, 2]) 4 4 = [1, 2].length ∧ ((wForw).sideOf 0).fwdLeft < 2 ^ 32 ∧ ((wForw).sideOf 0).fwdPos % (wForw).fwdBytes + 2 + 8 ≤ (wForw).fwdBytes ∧ memWf (wForw).mem = true ∧ [1, 2].length < fld (frag 0 3 [1, 2]) 4 4 ∧ 9 ≤ (frag 0 2 [1, 2]).length ∧ (wForw).fwdBase 0 + (wForw).fwdBytes ≤ scratchBase) := by decide +kernel

/-- A list of `n` zero bytes. -/
def zb (n : Nat) : List Byte := List.replicate n 0#8

theorem test_wf_accesses : Instr.wf (.registerWrite 0xFFFFFD [some 1, none, none] false) = true ∧ Instr.wf (.registerWrite 0xFFFFFD [some 1, none, none, none] false) = false ∧
    Instr.wf (.registerWrite 4 [] false) = false ∧ Instr.wf (.readClear 8 [true, false, false, false]) = true ∧
    Instr.wf (.readClear 8 [false, false]) = false ∧ Instr.wf (.readClear 0xFFFFFF [true, true]) = false ∧
    Instr.wf (.bar2Access 0 (.read 0) {}) = false ∧ Instr.wf (.bar2Access 0xFFFFFFFFF (.read 2) {}) = false ∧
    Instr.wf (.bar2Access 0xFFFFFFFFF (.read 1) {}) = true ∧ Instr.wf (.bar2Access 0 (.read 1) { faults := [.uncorrectable 0x2000000] }) = false ∧
    Instr.wf (.bar2Access 0 (.read 1) { faults := [.writeLost 0x2000000 true] }) = false ∧
    Instr.wf (.bar2Access 0 (.read 1) { single := [0x2000000] }) = false ∧ Instr.wf (.bar2Access 0 (.read 1) { lost := [8] }) = false := by decide

theorem test_wf_line : Instr.wf (.lineEvent {}) = true ∧ Instr.wf (.lineEvent { tileErr := [(34, 0, 1)] }) = false ∧
    Instr.wf (.lineEvent { tileErr := [(0, 2048, 1)] }) = false ∧ Instr.wf (.lineEvent { leadReadPoison := [256] }) = false ∧
    Instr.wf (.lineEvent { delayUncorr := [(5, 0)] }) = false ∧ Instr.wf (.lineEvent { delayUncorr := [(0, 8192)] }) = false ∧
    Instr.wf (.lineEvent { beamUncorr := [(5, 0)] }) = false ∧ Instr.wf (.lineEvent { beamUncorr := [(0, 65536)] }) = false ∧
    Instr.wf (.lineEvent { corrected := [0x2000000] }) = false ∧ Instr.wf (.triggerEdge true 0 { conflicts := [8] }) = false ∧
    Instr.wf (.replayPacer { unsent := some [(5, 0)] }) = false ∧ Instr.wf (.lineEvent { activates := [(32, 0, 0, 0)] }) = false := by decide

theorem test_wf_messages : Instr.wf (.postcard (zb 31)) = false ∧ Instr.wf (.echo 0 (zb 33)) = false ∧ Instr.wf (.health (zb 31)) = false ∧
    Instr.wf (.zone (zb 31) true) = false ∧ Instr.wf (.link (zb 31)) = false ∧ Instr.wf (.strayReturnMessage (zb 31)) = false ∧
    Instr.wf (.verdictMessage 0 (zb 15)) = false ∧ Instr.wf (.mark 0 (zb 15)) = false ∧ Instr.wf (.peerCountersign (zb 17) true) = false ∧
    Instr.wf (.tallyMessage (zb 31) {}) = false ∧ Instr.wf (.letterFragment 0 0 (zb 8) {}) = false ∧ Instr.wf (.letterFragment 0 0 (zb 9) {}) = true ∧
    Instr.wf (.ethRxFrame (zb 13) true false) = false ∧ Instr.wf (.ethRxFrame (zb 14) true false) = true ∧ Instr.wf (.sampleFrame []) = false ∧
    Instr.wf (.descFetch 0 (zb 31) false) = false ∧ Instr.wf (.descWriteback 0 [] { mem := { faults := [.poisoned 0xC00000000 false] } }) = false ∧
    Instr.wf (.jtagInstruction (.extest [] [])) = false ∧ Instr.wf (.stop 0 (2 ^ 36)) = false := by decide

theorem test_wf_codewords : Instr.wf (.rxCodeword 0 (List.replicate 2719 0) false) = false ∧ Instr.wf (.rxCodeword 0 (List.replicate 2720 0) false) = true ∧
    Instr.wf (.hello 0 0x801FF (zb 641)) = false ∧ Instr.wf (.peerDataCodeword 0 0 (zb 639)) = false := by decide +kernel

theorem test_wf_reports : Instr.wf (.letterArrival (.ring 0) { faults := [(.poisoned 0xC00000000 false)] }) = false ∧ Instr.wf (.letterArrival (.ring 0) { faults := [.keyUncorrectable 32768] }) = false ∧
    Instr.wf (.decodeDone 0 { faults := [(.uncorrectable 0x2000000)] }) = false ∧ Instr.wf (.cmpTake 0 (some ⟨2 ^ 36, 1, 0, 1, 0⟩) {}) = false ∧
    Instr.wf (.cmpDone 0 true { faults := [(.writeLost 0x2000000 false)] }) = false ∧ Instr.wf (.chkScanDone 0 {}) = true ∧
    Instr.wf (.albumScrubDone { faults := [(.poisoned 0xC00000000 true)] }) = false ∧
    Instr.wf (.ledgerWrite 0 { faults := [(.poisoned 0xC00000000 true)] }) = false ∧
    Instr.wf (.segmentExport { faults := [(.poisoned 0xC00000000 false)] }) = false ∧
    Instr.wf (.parityReplay 0 false 65 []) = false ∧ Instr.wf (.parityReplay 0 false 64 [(0, 0xC00000000)]) = false ∧
    Instr.wf (.parityReplay 0 false 64 [(0, 5)]) = true := by decide

/-- R564: the checks over "123456789". -/
theorem test_crc_presets : ((List.range 5).map fun i => crc (crcPreset (i + 1)) [0x31, 0x32, 0x33, 0x34, 0x35, 0x36, 0x37, 0x38, 0x39]) =
    [0xE3069283, 0xCBF43926, 0x995DC9BBDF1939FA, 0x29B1, 0xF4] := by decide +kernel

/-- The fire marker of line time 2,000,000 in the Fennick run (chapter 11). -/
theorem test_marker_check : bits (markerBits (2000000 % 65536) [31, 84, 49, 0, 108]) 127 120 = 0xED ∧
    bits (markerBits (2000000 % 65536) [31, 84, 49, 0, 108]) 79 64 = 0x8480 ∧
    bits (markerBits (2000000 % 65536) [31, 84, 49, 0, 108]) 63 0 = 0xD5C36A1F0E97B24C := by decide +kernel

/-- R336: line_cap() for 5 rows, by its procedure (log 61). -/
theorem test_line_cap : lineCap 5 0 0 = 450000 ∧ lineCap 5 0 1 = 374810 ∧ lineCap 5 1 1 = 270781 := by decide

/-- R169: the check digit of the Fennick serial. -/
theorem test_gs1 : checkDigit (valueDigits 10 12 740100000206) 1 = 4 := by decide

/-- R134: v = 200 under MUL_MASK with s = 128. -/
theorem test_mul_mask : blend 4 200 128 = 100 := by decide

/-- Zone 12 of the Fennick run with the coefficients that the example of chapter 15 gives. -/
def wZone12 : State :=
  let q : Zone := { st := .run, power := 11200, temp := 21000, current := 20500, supply := 16000, integ := List.replicate 3 (16000 * 2 ^ 16) }
  let s : State := { r0 with loops := { r0.loops with zone := modAt r0.loops.zone 12 fun _ => q } }
  let s := ((s.setActive (LOOP.ZONE_REF 12) 20480).setActive (LOOP.ZONE_LIM 12) (26000 * 2 ^ 16 + 24000)).setReg WEB.RATE 251968
  let s := (((s.setReg (LOOP.GAIN 0 0 0) (6144 * 2 ^ 16 + 8192)).setReg (LOOP.KP 0 0) 2048).setReg (LOOP.KP 0 1) 2048).setReg (LOOP.KP 0 2) 2048
  let s := [4, 5, 3, 6].foldl (fun s k => (s.setReg (LOOP.GAIN 0 1 k) 0x10001000).setReg (LOOP.GAIN 0 2 k) 0x10001000) s
  (((s.setReg (LOOP.KI 0 0) 655).setReg (LOOP.OUT_LIM 0) (30000 * 2 ^ 16)).setReg (LOOP.RECIP 0 7) (17476 * 2 ^ 16)).setReg (LOOP.RECIP 0 8) 16384

/-- R439: one sample of zone 12. -/
theorem test_zone12 : let q := (wZone12.zoneCompute 12).zoneOf 12
    wZone12.setpoint 12 = 11467 ∧ wZone12.gain 0 267 = 7124 ∧ wZone12.recip 16000 = 16794 ∧ q.winner = 0 ∧ q.u = 16232 ∧ q.out = 16638 ∧
    q.integ = [1048879920, 16000 * 2 ^ 16, 16000 * 2 ^ 16] := by decide +kernel

/-- Chapter 10: with T at 1,000 ns and ACCEL 31,496, ff adds 8,865 to v. -/
theorem test_feed_forward : rneDiv (31496 * 1000 * 2 ^ 48) (10 ^ 18) = 8865 ∧ rneDiv (64503937 * 1000 * 2 ^ 8) (10 ^ 9) = 16513 := by decide

/-- R90 to R93: a literal of two bytes, a run of three and a match of four at distance 5. -/
theorem test_qlc : (decodePayload ([2, 0, 0, 0, 9, 0, 0, 0, 9, 0, 0, 0] ++ [0x01, 7, 8] ++ [0xC2, 5] ++ [0x40, 4, 0, 0]) 9
    (crc32c [7, 8, 5, 5, 5, 7, 8, 5, 5]) true false).out = [7, 8, 5, 5, 5, 7, 8, 5, 5] := by decide +kernel

/-- R27: a read of a counter with one of its bytes enabled clears it. -/
theorem test_read_clear : (nx (.readClear (BitVec.ofNat 24 MAIL.LETTERS) [false, true]) (r0.setReg MAIL.LETTERS 5)).reg MAIL.LETTERS = 0 := by
  decide +kernel

/-- TILE at work, a slot 0 in a state with a lead of 64 lines, in line time 500, and waiting writes of MAIL.GO and ABORT. -/
def wGo (st : SlotState) (cmds : List SlotCmd) (take ends : Option Nat := none) (more : State → State := id) : State :=
  more { (on r0 pTILE) with
    slots := { st := st, job := 7, params := fixedPayload 800 (wParams 1), take := take, ends := ends, composed := 9 } :: r0.slots.tail
    mail := { r0.mail with cmds := cmds }, lineTime := 500 }

def goCmd : SlotCmd := { slot := 0, abort := false, late := false }

def abCmd : SlotCmd := { slot := 0, abort := true, late := false }

/-- Idle lines due before, at and after line 0 of a job that starts at 500. -/
def wIdle (s : State) : State := { s with comp := { s.comp with recs := [(563, {}), (564, {}), (565, { st := 1 }), (566, { taken := true })] } }

theorem witness_JobSlots_shape : wellShaped (wGo .staged [goCmd]) ∧ wellShaped (wGo .writing [abCmd, goCmd] (some 100)) := by
  unfold wellShaped
  decide +kernel

theorem witness_JobSlots :
    ((wGo .staged [{ goCmd with late := true }]).mail.cmds = [{ goCmd with late := true }] ∧ (∀ st ∈ [SlotState.gathering, .staged, .leading, .writing, .empty, .draining], ((wGo st [goCmd, abCmd]).slotOf 0).st = st ∧ (wGo st [goCmd, abCmd]).mail.cmds = [goCmd, abCmd])) ∧
    ((wGo .staged [goCmd]).enabled pTILE = true ∧ (wGo .staged [goCmd]).comp.on = none ∧ (∀ m : Fin 4, ((wGo .staged [goCmd]).slotOf m).st ≠ .leading ∧ ((wGo .staged [goCmd]).slotOf m).st ≠ .writing) ∧ (wGo .staged [goCmd]).successor none = some 0 ∧ (∀ m : Fin 4, m ≠ 0 → ((wGo .staged [goCmd]).slotOf m).st ≠ .staged) ∧ (wGo .staged [goCmd]).web.lasting = [] ∧ (wGo .gathering [goCmd]).mail.cmds = [goCmd] ∧ ((wGo .gathering [goCmd]).slotOf 0).st ≠ .staged ∧ ((wGo .staged [goCmd]).waitingAt pMAIL).length < 16 ∧ ((wGo .staged [goCmd]).slotOf 0).lead = 64) ∧
    ((let s := wGo .staged [goCmd] none none fun s => { s with web := { s.web with lasting := [5] } }; s.web.lasting ≠ [] ∧ s.replaying = false ∧ s.mail.cmds = [goCmd] ∧ s.successor s.comp.last = some 0)) ∧
    (((wGo .staged []).slotOf 0).start = none ∧ (∀ st ∈ [SlotState.leading, .writing, .draining], ((wGo st [] (some 436)).slotOf 0).start = some 500 ∧ ((wGo st [] (some 436)).slotOf 0).ends = none) ∧ ((wGo .leading [] (some 437)).slotOf 0).start = some 501 ∧ (wGo .leading [] (some 437)).lineTime = 500 ∧ ((wGo .writing [] (some 100) (some 336)).slotOf 0).ends = some 336 ∧ ((wGo .writing [] (some 100) (some 337)).slotOf 0).start = some 164 ∧ ((wGo .leading [] (some 436) (some 0)).slotOf 0).ends = some 0) := by decide +kernel

/-- A set of MAIL group 1 that waits. -/
def wPend (late : Bool) : State :=
  { r0 with pend := [{ page := pTILE, group := 1, vals := [(TILE.MAP 3, 32#32)], late := late }, { page := pSPLIT, group := 1, vals := [(SPLIT.DELAY_LO, 64#32)], late := false }], lineTime := 40 }

theorem witness_LineHandOver_shape : wellShaped r0 ∧ wellShaped (wPend true) := by
  unfold wellShaped
  decide +kernel

theorem witness_LineHandOver :
    ((groupEvent pTILE 1 = groupEvent pTILE 1) ∧ groupEvent pTILE 1 ≠ .none ∧ ((wPend false).pend.flatMap (·.vals) |>.map (·.1)).Nodup ∧ (HandOver.line ≠ .none) ∧ (shadowRegs .line) ≠ [] ∧ r0.active (TILE.MAP 3) = 3 ∧ regWriteCovered SPLIT.DELAY_LO = true ∧ mapSlot? SPLIT.DELAY_LO = none ∧ pageOf SPLIT.DELAY_LO = some pSPLIT ∧ r0.active SPLIT.DELAY_LO ≠ 64 ∧ r0.active SPLIT.DELAY_LO = 0) ∧
    ((let a := ((shadowRegs .line).headD 0); a ∈ shadowRegs .line ∧ (let s : State := { (r0.setReg a 5) with heldBack := [(a, 9#32)] }; keyGet s.heldBack a = some 9#32) ∧ keyGet (r0.setReg a 5).heldBack a = none)) ∧
    (r0.jl.reports = [] ∧ r0.comp.swaps = [] ∧ (∀ q ∈ (wPend false).pend, q.group = 2 → q.page ≠ pFRANK ∧ q.page ≠ pSPLIT)) := by decide +kernel

def src (layer op first : Nat) (px : List Byte) : Source := { kind := .posting, layer := layer, op := op, first := first, px := px }

/-- One strip, a lead ring in HBM, and a line 9 of the job on slot 0 planned for line time 700. -/
def wComp (p : Plan) (more : State → State := id) : State :=
  more { (((on (on r0 pTILE) pHBM).setActive SPLIT.ROW_CFG (2 ^ 16 + 5 * 256 + 20)).setActive TILE.LEAD_SIZE 4) with
    slots := { st := .leading, job := 7, params := fixedPayload 800 (wParams 1), take := some 600, planned := 10, composed := 9 } :: r0.slots.tail
    lineTime := 609, comp := { plan := some p, on := some 0, last := some 7, lead := some 64 } }

def wPlanOf (st cause : Nat) : Plan := { lt := 700, rcd := { job := 7, line := if st = 0 then 0 else 9, st := st }, cause := cause }

/-- The same line with a DIRECT row of two columns on it. -/
def wRow (cause : Nat) : State := wComp (wPlanOf 2 cause) fun s => { s with
    mem := [(16, 0xAA), (17, 0xBB)], slots := (modAt s.slots 0 fun x => { x with params := x.params.set 20 64, directs := [{ column := 3, layer := 1, op := 0, width := 2, line := 9, lines := 1, place := [(0, 18)] }] }) }

theorem witness_ComposedLines_shape : wellShaped (wComp (wPlanOf 2 0)) := by
  unfold wellShaped
  decide +kernel

theorem witness_ComposedLines :
    ((∀ h < 4, h < 4) ∧ (src 7 0 1 [5, 6]).layer < 8 ∧ (src 7 0 1 [5, 6, 7]).first + (src 7 0 1 [5, 6, 7]).px.length ≤ 4 ∧ ((src 2 0 1 [5]).first ≤ 1 ∧ 1 < (src 2 0 1 [5]).first + (src 2 0 1 [5]).px.length)) ∧
    ((wComp (wPlanOf 2 0)).comp.plan = some (wPlanOf 2 0) ∧ (wComp (wPlanOf 2 0) fun s => s.setReg (CTRL pTILE) 0).enabled pTILE = false ∧ (∀ st ∈ [0, 2], ∀ cause ∈ [0, 1, 2, 3, 4, 5], let s := wComp (wPlanOf st cause); s.enabled pTILE = true ∧ s.replaying = false ∧ s.comp.votes = [] ∧ s.comp.lead.isSome = true ∧ s.hbm.waiting = [] ∧ s.hbmServes (s.leadAddr 700) s.columns = true ∧ s.leadAddr 700 + s.columns ≤ scratchBase ∧ s.badGlyphs (s.sources (s.slotOf 0) 9) = [] ∧ s.served ((s.sources (s.slotOf 0) 9).flatMap (·.reads)) = true) ∧ (wRow 0).sources ((wRow 0).slotOf 0) 9 ≠ []) ∧
    ((20 : Nat) < 1 * 21 ∧ keyGet r0.comp.recs (40 - 1 * 20) = none ∧ (∀ r, keyGet (wIdle r0).comp.recs (583 - 1 * 20) = some r → r.st = 0)) := by decide +kernel

/-- Five rows of one strip, a good beam of gain 512 in row 4, column 4095 and a dead one beside it. -/
def wBeam (n : Nat) (bad : List Nat := []) : State :=
  let s := ((on r0 pSPLIT).setActive SPLIT.ROW_CFG (2 ^ 16 + 5 * 256 + 20)).setReg SPLIT.HEALTH_CFG (2 ^ 31 + 4)
  { s.writeMem (s.beamAddr 4 4094) (leBytes 4 0x10200 ++ leBytes 4 512) with
    scr := { r0.scr with bad := bad }, lineTime := 30
    split := { r0.split with log := List.replicate n { row := 4, col := 9, e := 8, old := 512 } } }

theorem witness_DoseAndBeams_shape : wellShaped (wBeam 0) := by
  unfold wellShaped
  decide +kernel

/-- A beam port write that waits to act: row 4, columns from 4095 on, all fields of 0x2C1FF. -/
def wPort (n : Nat) : State := (((((wBeam 0).setActive SPLIT.BEAM_SEL (4 * 2 ^ 16 + 4095)).setActive SPLIT.BEAM_COUNT n).setActive SPLIT.BEAM_DATA 0x2C1FF).setActive SPLIT.BEAM_WMASK 5)

def oneBeam (k c : Nat) (failed : Bool) : HealthReport := { number := 3, full := false, msgs := [{ row := k, failed := failed, first := c, count := 1 }] }

theorem witness_DoseAndBeams :
    (([] : List (Option Nat)).length ≤ 5 ∧ [some 3, none, some 0, some 7, some 90].length ≤ 5) ∧
    ((2 ^ 32 - 1 : Nat) < 2 ^ 32 ∧ (0 : Nat) < 2 ^ 32) ∧
    ((wBeam 0).active SPLIT.BEAM_LO + 4 * 327680 ≤ scratchSize ∧ (wBeam 0).beamEntry 4 4095 = 512 ∧ (wBeam 0).beamEntry 4 4094 = 0x10200 ∧ (wBeam 0).rows = 5 ∧ (wBeam 0).columns = 4096 ∧ (wBeam 0).badEntries 4 4095 1 = [] ∧ (wBeam 0 [63 * 65536 + 34847]).badEntries 4 4095 1 ≠ [] ∧ (wBeam 16383).split.log.length < 16384 ∧ 16384 ≤ (wBeam 16384).split.log.length) ∧
    ((wPort 1).replaying = false ∧ ((wPort 1).setReg LEDGER.REPLAY_CTRL (2 ^ 31) |>.setReg LEDGER.REPLAY_STATUS (2 ^ 30)).replaying = true ∧ bits ((wPort 0).active SPLIT.BEAM_COUNT) 16 0 = 0 ∧ bits ((wPort 1).active SPLIT.BEAM_COUNT) 16 0 = 1 ∧ bits ((wPort 1).active SPLIT.BEAM_SEL) 18 16 = 4 ∧ bits ((wPort 1).active SPLIT.BEAM_SEL) 15 0 = 4095 ∧ (wPort 1).badEntries 4 4095 1 = []) := by decide +kernel

theorem witness_DoseAndBeams_2 :
    ((wBeam 0).rows ≤ 5 ∧ (wBeam 0).columns ≤ 4096 ∧ (4 : Nat) < (wBeam 0).rows ∧ (4095 : Nat) < (wBeam 0).columns ∧ bits ((wBeam 0).beamEntry 4 4095) 17 16 = 0 ∧ bits ((wBeam 0).beamEntry 4 4094) 17 16 = 1 ∧ bit ((wBeam 0).reg SPLIT.HEALTH_CFG) 31 = true ∧ bit (((wBeam 0).setReg SPLIT.HEALTH_CFG 4).reg SPLIT.HEALTH_CFG) 31 = false) := by decide +kernel

/-- The assignment of a repeat of a job with a COUNTER field 7 of two decimal digits, STEP 2 and modulus 10, at a value; glyph set 0 has the
character 0 only. -/
def wCount (v : Nat) (selfConfirm : Nat) : Assign :=
  let defn : List Byte := [0, 0, 0, 0, 2, 0, BitVec.ofNat 8 selfConfirm, 0] ++ List.replicate 8 0 ++ leBytes 8 1 ++ leBytes 8 5 ++ leBytes 8 2 ++ leBytes 8 10 ++ [4, 0, 4, 0, 0, 0, 0, 0]
  let slot : Slot := { st := .staged, job := 1, params := fixedPayload 800 (wParams 1), fields := [{ num := 7, defn := defn, counter := v }],
                       glyphs := [{ num := 0, pages := [0], len := 16 }] }
  { st := { r0 with slots := slot :: r0.slots.tail, mem := [(scratchBase, 1), (scratchBase + 4, 0x30)] } }

def fieldOfCount (v sc : Nat) : Field := (((wCount v sc).st.slotOf 0).fieldOf 7).getD { num := 0, defn := [], counter := 0 }

theorem witness_FranksAndTiles_shape : wellShaped (wCount 0 0).st ∧ wellShaped r0 := by
  unfold wellShaped
  decide +kernel

/-- A composed line, and one or two patrol tiles left. -/
def wVote (failed : List Nat) : State := { r0 with comp := { r0.comp with failed := failed, recs := [(700, { num := 4, job := 7, line := 9, st := 1 })] } }

def tileBad (ps : List Nat) : List (Nat × Nat × Byte) := ps.map fun p => (p, 5, 1)

theorem witness_FranksAndTiles :
    ((2 : Nat) ≤ 10 ∧ (0 : Nat) < 36) ∧
    ((∀ v ∈ [0, 5, 99, 100], ∀ sc ∈ [0, 1], (wCount v sc).st.replaying = false ∧ (((wCount v sc).st.slotOf 0).fieldOf 7).isSome = true ∧ (fieldOfCount v sc).selfConfirm = (sc == 1)) ∧ (0 : Nat) < (fieldOfCount 0 0).base ^ (fieldOfCount 0 0).digits ∧ ((wCount 0 0).st.glyphsOf ((wCount 0 0).st.slotOf 0) (fieldOfCount 0 0) 0).isSome = true ∧ (99 : Nat) < (fieldOfCount 99 0).base ^ (fieldOfCount 99 0).digits ∧ (wCount 99 0).st.glyphsOf ((wCount 99 0).st.slotOf 0) (fieldOfCount 99 0) 99 = none ∧ (fieldOfCount 100 0).base ^ (fieldOfCount 100 0).digits ≤ 100 ∧ ((wCount 100 0).st.glyphsOf ((wCount 100 0).st.slotOf 0) (fieldOfCount 100 0) 100).isSome = true) ∧
    ((wVote []).patrols = [32, 33] ∧ (wVote [32]).patrols = [33] ∧ (wVote [32, 33]).patrols = [] ∧ (31 : Nat) < (wVote []).tileSlots ∧ (wVote []).tileOf 31 = 31 ∧ (wVote []).replaying = false ∧ (let l : List Byte := List.replicate 65536 0; tileOut (tileBad [32]) 32 (slotLevels l 31) ≠ tileOut (tileBad [32]) 31 (slotLevels l 31) ∧ tileOut (tileBad [32]) 33 (slotLevels l 31) = tileOut (tileBad [32]) 31 (slotLevels l 31))) ∧
    ((31 : Nat) < 32 ∧ (33 : Nat) < 34) ∧
    ((∀ r ∈ ([] : List (Nat × List Byte)), r.1 ≠ 0)) := by decide +kernel

end Sys2Proof.Tests
end

namespace Sys2Proof.Proofs
open Sys2Proof Sys2Proof.Machine Sys2Proof.Laws

/-! ### The levels that the interrupt sources hold (R40) -/

/-- Each of the 60 sources holds the level that its page's IRQ_RAW and IRQ_MASK give (R40). -/
def LevelsFollow (s : State) : Prop := ∀ n < 60, s.irq.level.getD n false = s.levelOf n

@[simp] theorem sendVector_level (s : State) (v : Nat) : (s.sendVector v).irq.level = s.irq.level := by
  unfold State.sendVector; dsimp only; split <;> rfl

@[simp] theorem notify_level (s : State) (n : Nat) : (s.notify n).irq.level = s.irq.level := by
  unfold State.notify; dsimp only; split
  · rfl
  · split <;> simp

@[simp] theorem notifyAll_level (l : List Nat) (s : State) : (l.foldl State.notify s).irq.level = s.irq.level := by
  induction l generalizing s with
  | nil => rfl
  | cons n l ih => simp [ih]

/-- A source's level depends on the registers alone. -/
theorem levelOf_congr {s t : State} (h : s.regs = t.regs) (n : Nat) : s.levelOf n = t.levelOf n := by
  simp [State.levelOf, State.reg, h]

@[simp] theorem levels_getD (s : State) {n : Nat} (h : n < 60) : s.levels.getD n false = s.levelOf n := by
  simp [State.levels, h]

@[simp] theorem followLevels_level (s : State) : s.followLevels.irq.level = s.levels := by
  simp [State.followLevels]

@[simp] theorem followLevels_regs (s : State) : s.followLevels.regs = s.regs := by
  simp [State.followLevels]

theorem followLevels_levelsFollow (s : State) : LevelsFollow s.followLevels := by
  intro n hn
  rw [followLevels_level, levels_getD s hn]
  exact levelOf_congr (followLevels_regs s).symm n

theorem settled_levelsFollow (s t : State) : LevelsFollow (settled s t) := followLevels_levelsFollow _

/-- In OFF `settle` leaves the state as it was, so its result is settled wherever that has its rails on. -/
theorem settle_levelsFollow {s t : State} (h : (settle s t).power.st ≠ 4) : LevelsFollow (settle s t) := by
  unfold settle at h ⊢
  split
  · next hoff => simp [hoff] at h
  · exact settled_levelsFollow s t

theorem exec_levelsFollow {c : Instr} {s t : State} (h : exec c s = .next t) (hon : t.power.st ≠ 4) : LevelsFollow t := by
  by_cases htamper : ∃ l, c = .tamper l
  · obtain ⟨l, rfl⟩ := htamper
    cases h
    exact settled_levelsFollow s _
  by_cases hpower : ∃ a, c = .powerOn a
  · obtain ⟨a, rfl⟩ := hpower
    cases h
    exact settled_levelsFollow s _
  obtain ⟨u, rfl⟩ := exec_next h (fun l hc => htamper ⟨l, hc⟩) (fun a hc => hpower ⟨a, hc⟩)
  exact settle_levelsFollow hon

/-- The clocks end like a command; the line event that may join the queue moves no level. -/
theorem tick_levelsFollow (s : State) : LevelsFollow s.tick := by
  unfold State.tick
  split
  · exact settled_levelsFollow s _
  · next hon =>
    have hsettled (u : State) : LevelsFollow (settle s u) := by
      rw [settle, if_neg hon]
      exact settled_levelsFollow s u
    dsimp only
    split
    · exact hsettled _
    · exact hsettled _

theorem step_levelsFollow {s t : State} (h : step s = .next t) (hon : t.power.st ≠ 4) : LevelsFollow t := by
  cases hq : s.pending with
  | nil =>
    rw [step_nil hq] at h
    cases h
    exact tick_levelsFollow s
  | cons c rest =>
    rw [step_cons hq] at h
    exact exec_levelsFollow h hon

/-- Settles O4: every command and the clocks end where the levels follow their pages, unless the main rails are off (R40). -/
theorem levelsFollowPages : Obligations.LevelsFollowPages := by
  unfold Obligations.LevelsFollowPages
  intro s t hstep hon n
  exact step_levelsFollow hstep hon n.val n.isLt

/-! ### A wake event leaves the hand-over alone (R611) -/

@[simp] theorem napMs_act (s : State) : s.napMs.act = s.act := bump_act s _ _
@[simp] theorem napMs_pend (s : State) : s.napMs.pend = s.pend := bump_pend s _ _

@[simp] theorem hbmActive_act (s : State) : s.hbmActive.act = s.act := by
  unfold State.hbmActive; split <;> rfl
@[simp] theorem hbmActive_pend (s : State) : s.hbmActive.pend = s.pend := by
  unfold State.hbmActive; split <;> rfl

@[simp] theorem countEntry_act (s : State) (st : Nat) : (s.countEntry st).act = s.act := by
  simp only [State.countEntry, apply_ite State.act, bump_act, ite_self]
@[simp] theorem countEntry_pend (s : State) (st : Nat) : (s.countEntry st).pend = s.pend := by
  simp only [State.countEntry, apply_ite State.pend, bump_pend, ite_self]

@[simp] theorem powerMoved_act (s : State) (old : Nat) : (s.powerMoved old).act = s.act := by
  simp [State.powerMoved]
@[simp] theorem powerMoved_pend (s : State) (old : Nat) : (s.powerMoved old).pend = s.pend := by
  simp [State.powerMoved]

@[simp] theorem wakeEvent_act (s : State) (cause : Nat) : (s.wakeEvent cause).act = s.act := by
  simp only [State.wakeEvent, apply_ite State.act, powerMoved_act, hbmActive_act, napMs_act, ite_self]
@[simp] theorem wakeEvent_pend (s : State) (cause : Nat) : (s.wakeEvent cause).pend = s.pend := by
  simp only [State.wakeEvent, apply_ite State.pend, powerMoved_pend, hbmActive_pend, napMs_pend, ite_self]

/-! ### A write of the group number 0 (R32) -/

/-- A cleared low byte is a number without its remainder by 256. -/
theorem putField_byte_zero (v : Nat) : putField v 7 0 0 = v - v % 256 := by
  simp [putField, bits]

@[simp] theorem bits_putField_byte_zero (v : Nat) : bits (putField v 7 0 0) 7 0 = 0 := by
  rw [putField_byte_zero]
  simp only [bits]
  omega

@[simp] theorem bit_eight_putField_byte_zero (v : Nat) : bit (putField v 7 0 0) 8 = bit v 8 := by
  rw [putField_byte_zero]
  have h : (v - v % 256) / 2 ^ 8 = v / 2 ^ 8 := by omega
  simp only [bit, h]

/-- COMMIT_GROUP with group 0 only clears the group number, after the wake event of its access. -/
theorem exec_commitGroup_zero (s : State) (p : Fin 60) (late : Bool) :
    exec (.commitGroup p 0 late) s =
      .next (settle s ((s.wakeEvent wakeREGISTER).setReg (COMMIT p.val)
        (putField ((s.wakeEvent wakeREGISTER).reg (COMMIT p.val)) 7 0 0))) := rfl

/-- Settles O11: the only register written is COMMIT, and neither that nor the wake event touches an active copy or a pending set (R32). -/
theorem commitZero : Obligations.CommitZero := by
  unfold Obligations.CommitZero
  refine ⟨fun s p late _ => ⟨exec_commitGroup_zero s p late, ?_, ?_⟩, fun v _ => ⟨?_, ?_⟩⟩
  · rw [setReg_act, wakeEvent_act]
  · rw [setReg_pend, wakeEvent_pend]
  · exact bit_eight_putField_byte_zero v
  · exact bits_putField_byte_zero v

end Sys2Proof.Proofs

namespace Sys2Proof.Proofs
open Sys2Proof Sys2Proof.Machine Sys2Proof.Laws

/-! ### What a register reads after a write -/

/-- A write leaves the value of every other register alone. -/
@[simp] theorem reg_setReg_ne (s : State) {a b : Nat} (v : Nat) (h : b ≠ a) : (s.setReg a v).reg b = s.reg b :=
  congrArg BitVec.toNat (sparseGet_sparseSet_ne s.regs a b _ _ _ h)

/-- The register that was written reads the 32 low bits of the value. -/
theorem reg_setReg_same {s : State} (h : risingFrom 0 s.regs = true) (a v : Nat) : (s.setReg a v).reg a = v % 2 ^ 32 :=
  (congrArg BitVec.toNat (sparseGet_sparseSet s.regs 0 a _ _ h)).trans (BitVec.toNat_ofNat v 32)

/-- A value of 32 bits is read back whole. -/
theorem reg_setReg_of_lt {s : State} (h : risingFrom 0 s.regs = true) (a : Nat) {v : Nat} (hv : v < 2 ^ 32) :
    (s.setReg a v).reg a = v :=
  (reg_setReg_same h a v).trans (Nat.mod_eq_of_lt hv)

/-- A write keeps the addresses of the written registers rising. -/
theorem setReg_regs_rising {s : State} (h : risingFrom 0 s.regs = true) (a v : Nat) : risingFrom 0 (s.setReg a v).regs = true :=
  risingFrom_sparseSet s.regs 0 a _ _ h (Nat.zero_le a)

/-! ### The snapshot of the local time (R415) -/

@[simp] theorem napMs_time (s : State) : s.napMs.time = s.time := bump_time s _ _

@[simp] theorem hbmActive_time (s : State) : s.hbmActive.time = s.time := by
  unfold State.hbmActive; split <;> rfl

@[simp] theorem countEntry_time (s : State) (st : Nat) : (s.countEntry st).time = s.time := by
  simp only [State.countEntry, apply_ite State.time, bump_time, ite_self]

@[simp] theorem powerMoved_time (s : State) (old : Nat) : (s.powerMoved old).time = s.time := by
  simp [State.powerMoved]

/-- A wake event leaves the local time alone: SNAP copies the time of the tick that it came in. -/
@[simp] theorem wakeEvent_time (s : State) (cause : Nat) : (s.wakeEvent cause).time = s.time := by
  simp only [State.wakeEvent, apply_ite State.time, powerMoved_time, hbmActive_time, napMs_time, ite_self]

/-- SNAP is the three writes of NOW_EPOCH, NOW_NS and NOW_FRAC, after the wake event of its access. -/
theorem exec_snap (s : State) :
    exec .snap s = .next (settle s ((((s.wakeEvent wakeREGISTER).setReg TIME.NOW_EPOCH s.time.epoch).setReg TIME.NOW_NS
      s.time.ns).setReg TIME.NOW_FRAC s.time.frac)) := by
  have hexec : exec .snap s = .next (settle s (s.wakeEvent wakeREGISTER).snap) := rfl
  rw [hexec, State.snap, wakeEvent_time]

/-- Settles O15: the wake event keeps the time, and none of the three writes reaches the register of another one (R415). -/
theorem timeSnapshot : Obligations.TimeSnapshot := by
  unfold Obligations.TimeSnapshot
  intro s _ hepoch hns hfrac w hw u
  have hepochRegs := setReg_regs_rising hw TIME.NOW_EPOCH s.time.epoch
  have hnsRegs := setReg_regs_rising hepochRegs TIME.NOW_NS s.time.ns
  refine ⟨exec_snap s, ?_, ?_, reg_setReg_of_lt hnsRegs _ hfrac⟩
  · rw [reg_setReg_ne _ _ (by decide), reg_setReg_ne _ _ (by decide)]
    exact reg_setReg_of_lt hw _ hepoch
  · rw [reg_setReg_ne _ _ (by decide)]
    exact reg_setReg_of_lt hepochRegs _ hns

end Sys2Proof.Proofs

namespace Sys2Proof.Proofs
open Sys2Proof Sys2Proof.Machine Sys2Proof.Laws

/-! ### Records and active copies leave the axes alone (R34, R580) -/

/-- `t` is reached from `s` by taking active copies and by records that wait or are lost, with no error code latched. -/
structure RecordsOnly (s t : State) : Prop where
  axes : t.axes = s.axes
  mem : t.mem = s.mem
  out : t.out = s.out
  reg : ∀ b, b ≠ LEDGER.HELD_LOST → t.reg b = s.reg b
  rising : risingFrom 0 s.regs = true → risingFrom 0 t.regs = true

theorem RecordsOnly.refl (s : State) : RecordsOnly s s := ⟨rfl, rfl, rfl, fun _ _ => rfl, id⟩

theorem RecordsOnly.trans {s t u : State} (h : RecordsOnly s t) (h' : RecordsOnly t u) : RecordsOnly s u where
  axes := h'.axes.trans h.axes
  mem := h'.mem.trans h.mem
  out := h'.out.trans h.out
  reg b hb := (h'.reg b hb).trans (h.reg b hb)
  rising := h'.rising ∘ h.rising

theorem setActive_recordsOnly (s : State) (a v : Nat) : RecordsOnly s (s.setActive a v) :=
  ⟨rfl, rfl, rfl, fun _ _ => rfl, id⟩

/-- An event record waits, or is counted in HELD_LOST alone (R584). -/
theorem event_recordsOnly (s : State) (p code : Nat) (l : List Fld) : RecordsOnly s (s.event p code l) := by
  refine ⟨event_axes .., event_mem .., event_out .., fun b hb => ?_, fun hw => ?_⟩
  · unfold State.event State.post
    split
    · rfl
    · exact reg_setReg_ne s _ hb
  · unfold State.event State.post
    split
    · exact hw
    · exact setReg_regs_rising hw _ _

theorem regWriteRec_recordsOnly (s : State) (a v u : Nat) : RecordsOnly s (s.regWriteRec a v u) := by
  unfold State.regWriteRec
  split
  · exact event_recordsOnly ..
  · split
    · exact event_recordsOnly ..
    · exact .refl s

theorem activate_recordsOnly (s : State) (u : Nat) (r : Nat × Word) : RecordsOnly s (s.activate u r) := by
  unfold State.activate
  split
  · exact .refl s
  · exact (setActive_recordsOnly ..).trans (regWriteRec_recordsOnly ..)

/-- A group that hands over at once writes no register but COMMIT, the end of an earlier refusal (R31, R34). -/
theorem commitNow_recordsOnly (s : State) (p g : Nat) : RecordsOnly (s.commitAccepted p) (s.commitNow p g) := by
  unfold State.commitNow
  induction s.staged p g using List.reverseRecOn with
  | nil => exact .refl _
  | append_singleton l r ih =>
    rw [List.foldl_append]
    exact ih.trans (activate_recordsOnly ..)

/-! ### Cause bits (R40) -/

theorem bit_eq_testBit (v i : Nat) : bit v i = v.testBit i := by
  rw [bit, Nat.testBit_eq_decide_div_mod_eq, beq_eq_decide]

/-- `raise` sets its own cause bit of IRQ_RAW and keeps the others. -/
theorem bit_irqRaw_raise {s : State} (hw : risingFrom 0 s.regs = true) (p c : Nat) {i : Nat} (hi : i < 32) :
    bit ((s.raise p c).reg (IRQ_RAW p)) i = (bit (s.reg (IRQ_RAW p)) i || decide (c = i)) := by
  have hreg : (s.raise p c).reg (IRQ_RAW p) = (s.reg (IRQ_RAW p) ||| 2 ^ c) % 2 ^ 32 := reg_setReg_same hw ..
  rw [hreg, bit_eq_testBit, bit_eq_testBit, Nat.testBit_mod_two_pow, Nat.testBit_or, Nat.testBit_two_pow, decide_eq_true hi, Bool.true_and]

/-! ### The end of a command sends no step (R41) -/

theorem emit_out (s : State) (x : Out) : (s.emit x).out = s.out ++ [x] := rfl

theorem step_mem_sendVector {s : State} {v x n : Nat} {d : Bool} (h : Out.step x d n ∈ (s.sendVector v).out) :
    Out.step x d n ∈ s.out := by
  unfold State.sendVector at h
  dsimp only at h
  split at h
  · exact h
  · simpa [emit_out] using h

theorem step_mem_notify {s : State} {p x n : Nat} {d : Bool} (h : Out.step x d n ∈ (s.notify p).out) : Out.step x d n ∈ s.out := by
  unfold State.notify at h
  dsimp only at h
  split at h
  · exact h
  · split at h
    · exact step_mem_sendVector h
    · exact step_mem_sendVector h

theorem step_mem_notifyAll {l : List Nat} {s : State} {x n : Nat} {d : Bool} (h : Out.step x d n ∈ (l.foldl State.notify s).out) :
    Out.step x d n ∈ s.out := by
  induction l generalizing s with
  | nil => exact h
  | cons p l ih => exact step_mem_notify (ih h)

/-- The end of a command sends messages of interrupts only. -/
theorem step_mem_settled {s t : State} {x n : Nat} {d : Bool} (h : Out.step x d n ∈ (settled s t).out) : Out.step x d n ∈ t.out :=
  step_mem_notifyAll (s := { t with pending := s.pending, irq := { t.irq with level := t.levels } }) h

@[simp] theorem reg_settled (s t : State) (a : Nat) : (settled s t).reg a = t.reg a := by rw [State.reg, State.reg, settled_regs]

/-! ### Axes and their registers -/

theorem axisOf_congr {s t : State} (h : t.axes = s.axes) (a : Nat) : t.axisOf a = s.axisOf a := by
  rw [State.axisOf, State.axisOf, h]

@[simp] theorem axisOf_settled (s t : State) (a : Nat) : (settled s t).axisOf a = t.axisOf a := axisOf_congr (settled_axes s t) a

@[simp] theorem axisOf_setAxis_same {s : State} {a : Nat} (f : Axis → Axis) (ha : a < s.axes.length) :
    (s.setAxis a f).axisOf a = f (s.axisOf a) := by
  simp [State.axisOf, State.setAxis, modAt, List.getD_eq_getElem?_getD, ha]

@[simp] theorem setAxis_regs (s : State) (a : Nat) (f : Axis → Axis) : (s.setAxis a f).regs = s.regs := rfl
@[simp] theorem setAxis_mem (s : State) (a : Nat) (f : Axis → Axis) : (s.setAxis a f).mem = s.mem := rfl
@[simp] theorem setAxis_out (s : State) (a : Nat) (f : Axis → Axis) : (s.setAxis a f).out = s.out := rfl

@[simp] theorem setAxis_axes_length (s : State) (a : Nat) (f : Axis → Axis) : (s.setAxis a f).axes.length = s.axes.length :=
  List.length_modify ..

/-- A read of RESULT returns the result that the axis keeps (R479). -/
theorem readAxis_result (s : State) (a : Fin 4) : s.readAxis (AXIS.RESULT a) = some (s.axisOf a).result := by
  have hindex : (AXIS.RESULT a - AXIS.CFG 0) / 0x40 = a := by simp only [AXIS.RESULT, AXIS.CFG]; omega
  have hstatus : AXIS.RESULT a ≠ STATUS pAXIS := by have : STATUS pAXIS = 0x1800C := rfl; simp only [AXIS.RESULT]; omega
  have hrange : AXIS.CFG 0 ≤ AXIS.RESULT a ∧ AXIS.RESULT a < AXIS.CFG 4 := by simp only [AXIS.RESULT, AXIS.CFG]; omega
  have hpos : AXIS.RESULT a ≠ AXIS.POS a := by simp only [AXIS.RESULT, AXIS.POS]; omega
  have hstate : AXIS.RESULT a ≠ AXIS.ASTATE a := by simp only [AXIS.RESULT, AXIS.ASTATE]; omega
  simp only [State.readAxis, hindex, hstatus, hrange, hpos, hstate, if_true, if_false, and_self]

/-- HEAD_SAFE is no part of what an axis keeps (R478). -/
@[simp] theorem headSync_axes (s : State) : s.headSync.axes = s.axes := by unfold State.headSync; dsimp only; split <;> rfl
@[simp] theorem headSync_mem (s : State) : s.headSync.mem = s.mem := by unfold State.headSync; dsimp only; split <;> rfl
@[simp] theorem headSync_out (s : State) : s.headSync.out = s.out := by unfold State.headSync; dsimp only; split <;> rfl

/-- A cause bit of AXIS that is set stays set where HEAD_SAFE follows its condition. -/
theorem bit_irqRaw_headSync {s : State} (hw : risingFrom 0 s.regs = true) {i : Nat} (hi : i < 32)
    (h : bit (s.reg (IRQ_RAW pAXIS)) i = true) : bit (s.headSync.reg (IRQ_RAW pAXIS)) i = true := by
  unfold State.headSync
  dsimp only
  split
  · rw [bit_irqRaw_raise (s := { s with headSafe := s.headSafeNow }) hw _ _ hi]
    exact Bool.or_eq_true_iff.mpr (.inl h)
  · exact h

/-! ### Ends of actions (R464) -/

/-- An axis that goes IDLE with a result. -/
def idleWith (result : Nat) (x : Axis) : Axis := { x with st := 0, interval := 0, thenSplice := false, result := result }

/-- An action ends in three steps: the axis goes IDLE, a record waits, and DONE rises. -/
theorem endAction_eq (s : State) (a code : Nat) (cut : Bool) : ∃ l, s.endAction a code cut =
    ((s.setAxis a (idleWith (2 ^ 31 + (if cut then 2 ^ 30 else 0) + code))).event pAXIS V.ACTION l).raise pAXIS 2 := ⟨_, rfl⟩

@[simp] theorem endAction_mem (s : State) (a code : Nat) (cut : Bool) : (s.endAction a code cut).mem = s.mem := by
  obtain ⟨l, h⟩ := endAction_eq s a code cut
  rw [h, raise_mem, event_mem, setAxis_mem]

@[simp] theorem endAction_out (s : State) (a code : Nat) (cut : Bool) : (s.endAction a code cut).out = s.out := by
  obtain ⟨l, h⟩ := endAction_eq s a code cut
  rw [h, raise_out, event_out, setAxis_out]

theorem axisOf_endAction {s : State} {a : Nat} (code : Nat) (cut : Bool) (ha : a < s.axes.length) :
    (s.endAction a code cut).axisOf a = idleWith (2 ^ 31 + (if cut then 2 ^ 30 else 0) + code) (s.axisOf a) := by
  obtain ⟨l, h⟩ := endAction_eq s a code cut
  rw [h, axisOf_congr (raise_axes ..), axisOf_congr (event_axes ..), axisOf_setAxis_same _ ha]

theorem endAction_regs_rising {s : State} (hw : risingFrom 0 s.regs = true) (a code : Nat) (cut : Bool) :
    risingFrom 0 (s.endAction a code cut).regs = true := by
  obtain ⟨l, h⟩ := endAction_eq s a code cut
  rw [h]
  exact setReg_regs_rising ((event_recordsOnly (s.setAxis a _) _ _ l).rising hw) ..

/-- An action that ends raises DONE. -/
theorem endAction_done {s : State} (hw : risingFrom 0 s.regs = true) (a code : Nat) (cut : Bool) :
    bit ((s.endAction a code cut).reg (IRQ_RAW pAXIS)) 2 = true := by
  obtain ⟨l, h⟩ := endAction_eq s a code cut
  rw [h, bit_irqRaw_raise ((event_recordsOnly (s.setAxis a _) _ _ l).rising hw) _ _ (by decide)]
  exact Bool.or_true _

/-- AXIS_STEP of an IDLE axis does nothing. -/
theorem exec_axisStep_of_idle {s : State} {a : Fin 4} (h : (s.axisOf a).st = 0) : exec (.axisStep a) s = .next (settle s s) := by
  have hstep : s.axisStep a = s := by simp [State.axisStep, h]
  exact congrArg (fun u => Host.Outcome.next (settle s u)) hstep

/-! ### An action of no step (R461, R462) -/

/-- Host software has staged MODE.OP and written group a + 1 to COMMIT. -/
def axisStaged (s : State) (a op : Nat) : State :=
  (s.setReg (AXIS.MODE a) op).setReg (COMMIT pAXIS) (putField ((s.setReg (AXIS.MODE a) op).reg (COMMIT pAXIS)) 7 0 (a + 1))

theorem axisAct_eq (s : State) (a op : Nat) : s.axisAct a op = (axisStaged s a op).axisCommit a := rfl

theorem axisStaged_regs_rising {s : State} (hw : risingFrom 0 s.regs = true) (a op : Nat) :
    risingFrom 0 (axisStaged s a op).regs = true :=
  setReg_regs_rising (setReg_regs_rising hw ..) ..

theorem reg_axisStaged (s : State) {a b : Nat} (op : Nat) (hmode : b ≠ AXIS.MODE a) (hcommit : b ≠ COMMIT pAXIS) :
    (axisStaged s a op).reg b = s.reg b :=
  (reg_setReg_ne _ _ hcommit).trans (reg_setReg_ne _ _ hmode)

theorem commit_pAXIS : COMMIT pAXIS = 0x1801C := rfl

theorem mode_ne_commit (a : Nat) : AXIS.MODE a ≠ COMMIT pAXIS := by rw [commit_pAXIS, AXIS.MODE]; omega
theorem target_ne_commit (a : Nat) : AXIS.TARGET a ≠ COMMIT pAXIS := by rw [commit_pAXIS, AXIS.TARGET]; omega

@[simp] theorem target_axisStaged (s : State) (a op : Nat) : (axisStaged s a op).reg (AXIS.TARGET a) = s.reg (AXIS.TARGET a) :=
  reg_axisStaged s op (by simp only [AXIS.TARGET, AXIS.MODE]; omega) (target_ne_commit a)

@[simp] theorem travel_axisStaged (s : State) (a op : Nat) : (axisStaged s a op).reg (AXIS.TRAVEL a) = s.reg (AXIS.TRAVEL a) :=
  reg_axisStaged s op (by simp only [AXIS.TRAVEL, AXIS.MODE]; omega) (by rw [commit_pAXIS, AXIS.TRAVEL]; omega)

@[simp] theorem c0_axisStaged (s : State) (a op : Nat) : (axisStaged s a op).reg (AXIS.C0 a) = s.reg (AXIS.C0 a) :=
  reg_axisStaged s op (by simp only [AXIS.C0, AXIS.MODE]; omega) (by rw [commit_pAXIS, AXIS.C0]; omega)

@[simp] theorem cmin_axisStaged (s : State) (a op : Nat) : (axisStaged s a op).reg (AXIS.CMIN a) = s.reg (AXIS.CMIN a) :=
  reg_axisStaged s op (by simp only [AXIS.CMIN, AXIS.MODE]; omega) (by rw [commit_pAXIS, AXIS.CMIN]; omega)

@[simp] theorem enabled_axisStaged (s : State) (a op : Nat) : (axisStaged s a op).enabled pAXIS = s.enabled pAXIS := by
  have hctrl : CTRL pAXIS = 0x18008 := rfl
  rw [State.enabled, State.enabled, reg_axisStaged s op (by rw [hctrl, AXIS.MODE]; omega) (by decide)]

/-- MODE.OP reads as it was staged. -/
theorem mode_axisStaged {s : State} (hw : risingFrom 0 s.regs = true) (a op : Nat) :
    bits ((axisStaged s a op).reg (AXIS.MODE a)) 1 0 = op % 4 := by
  have hreg : (axisStaged s a op).reg (AXIS.MODE a) = op % 2 ^ 32 :=
    (reg_setReg_ne _ _ (mode_ne_commit a)).trans (reg_setReg_same hw ..)
  rw [hreg, bits]
  omega

/-- A MOVE plans the steps from POS to TARGET (R460). -/
theorem axisPlan_staged_move {s : State} (hw : risingFrom 0 s.regs = true) (a : Nat) :
    (axisStaged s a 0).axisPlan a = sInt 32 (s.reg (AXIS.TARGET a)) - (s.axisOf a).pos := by
  rw [State.axisPlan, mode_axisStaged hw, target_axisStaged]
  rfl

/-- A RELATIVE plans TARGET steps (R460). -/
theorem axisPlan_staged_relative {s : State} (hw : risingFrom 0 s.regs = true) (a : Nat) :
    (axisStaged s a 2).axisPlan a = sInt 32 (s.reg (AXIS.TARGET a)) := by
  rw [State.axisPlan, mode_axisStaged hw, target_axisStaged]
  rfl

/-- R461 for an axis that would travel toward no limit: the latches refuse nothing. -/
theorem axisAllowed_of_plan_zero {s : State} {a : Nat} (hen : s.enabled pAXIS = true) (hidle : (s.axisOf a).st = 0)
    (hquiet : s.jobsQuiet = true) (hsplice : s.spliceAxis ≠ a ∨ s.web.spliceN = true) (hc : s.reg (AXIS.CMIN a) ≤ s.reg (AXIS.C0 a))
    (hop : bits (s.reg (AXIS.MODE a)) 1 0 = 2 ∨ bits (s.reg (AXIS.MODE a)) 1 0 = 0 ∧ (s.axisOf a).homed = true ∧
      0 ≤ sInt 32 (s.reg (AXIS.TARGET a)) ∧ sInt 32 (s.reg (AXIS.TARGET a)) ≤ s.reg (AXIS.TRAVEL a))
    (hplan : s.axisPlan a = 0) : s.axisAllowed a = true := by
  have hsplice' : (!(s.spliceAxis == a && !s.web.spliceN)) = true := by simpa [← or_iff_not_imp_left] using hsplice
  rcases hop with hrel | ⟨hmove, hhomed, hlo, hhi⟩
  · simp [State.axisAllowed, State.slotsBusy, hen, hidle, hquiet, hsplice', hc, hplan, hrel]
  · simp [State.axisAllowed, State.slotsBusy, hen, hidle, hquiet, hsplice', hc, hplan, hmove, hhomed, hlo, hhi]

theorem mode_commitNow (s : State) (a : Fin 4) (g : Nat) : (s.commitNow pAXIS g).reg (AXIS.MODE a) = s.reg (AXIS.MODE a) :=
  ((commitNow_recordsOnly s pAXIS g).reg _ (by simp only [AXIS.MODE, LEDGER.HELD_LOST]; omega)).trans
    (reg_setReg_ne s _ (mode_ne_commit a))

theorem target_commitNow (s : State) (a : Fin 4) (g : Nat) : (s.commitNow pAXIS g).reg (AXIS.TARGET a) = s.reg (AXIS.TARGET a) :=
  ((commitNow_recordsOnly s pAXIS g).reg _ (by simp only [AXIS.TARGET, LEDGER.HELD_LOST]; omega)).trans
    (reg_setReg_ne s _ (target_ne_commit a))

/-- The plan of a staged group outlives its own commit (R34). -/
theorem axisPlan_commitNow (s : State) (a : Fin 4) (g : Nat) : (s.commitNow pAXIS g).axisPlan a = s.axisPlan a := by
  have haxis : (s.commitNow pAXIS g).axisOf a = s.axisOf a := axisOf_congr (commitNow_recordsOnly s pAXIS g).axes a
  rw [State.axisPlan, State.axisPlan, mode_commitNow, target_commitNow, haxis]

/-- What the axis takes at the start of an action that is to end at once, with its OP for the record (R463, R464). -/
def zeroTaken (s : State) (a : Nat) : State :=
  (s.setAxis a (s.axisTake a)).setAxis a fun x => { x with op := bits (s.reg (AXIS.MODE a)) 1 0 }

/-- A MOVE or RELATIVE of no step ends as it starts, with ZERO and without CUT (R462). -/
theorem axisStart_of_plan_zero {s : State} {a : Nat} (hop : bits (s.reg (AXIS.MODE a)) 1 0 ≠ 1) (hplan : s.axisPlan a = 0) :
    s.axisStart a = (zeroTaken s a).endAction a E.ZERO false := by
  simp only [State.axisStart, hop, hplan, if_true, if_false]
  rfl

/-- The end of that action, with HEAD_SAFE as its condition then gives it (R462, R464, R478). -/
def zeroEnded (s : State) (a : Nat) : State := ((zeroTaken s a).endAction a E.ZERO false).headSync

theorem axisOf_zeroEnded {s : State} {a : Nat} (ha : a < s.axes.length) : (zeroEnded s a).axisOf a =
    idleWith (2 ^ 31 + E.ZERO) { s.axisTake a (s.axisOf a) with op := bits (s.reg (AXIS.MODE a)) 1 0 } := by
  have ha' : a < (s.setAxis a (s.axisTake a)).axes.length := by rwa [setAxis_axes_length]
  have ha'' : a < (zeroTaken s a).axes.length := by rwa [zeroTaken, setAxis_axes_length]
  rw [zeroEnded, axisOf_congr (headSync_axes _), axisOf_endAction _ _ ha'', zeroTaken, axisOf_setAxis_same _ ha',
    axisOf_setAxis_same _ ha, if_neg Bool.false_ne_true, Nat.add_zero]

theorem zeroEnded_st {s : State} {a : Nat} (ha : a < s.axes.length) : ((zeroEnded s a).axisOf a).st = 0 := by
  rw [axisOf_zeroEnded ha]; rfl

theorem zeroEnded_pos {s : State} {a : Nat} (ha : a < s.axes.length) : ((zeroEnded s a).axisOf a).pos = (s.axisOf a).pos := by
  rw [axisOf_zeroEnded ha]; rfl

theorem zeroEnded_result {s : State} {a : Nat} (ha : a < s.axes.length) : ((zeroEnded s a).axisOf a).result = 2 ^ 31 + E.ZERO := by
  rw [axisOf_zeroEnded ha]; rfl

theorem zeroEnded_mem (s : State) (a : Nat) : (zeroEnded s a).mem = s.mem := by
  simp [zeroEnded, zeroTaken]

theorem zeroEnded_out (s : State) (a : Nat) : (zeroEnded s a).out = s.out := by
  simp [zeroEnded, zeroTaken]

theorem zeroEnded_done {s : State} (hw : risingFrom 0 s.regs = true) (a : Nat) :
    bit ((zeroEnded s a).reg (IRQ_RAW pAXIS)) 2 = true := by
  have hw' : risingFrom 0 (zeroTaken s a).regs = true := by rwa [zeroTaken, setAxis_regs, setAxis_regs]
  exact bit_irqRaw_headSync (endAction_regs_rising hw' ..) (by decide) (endAction_done hw' ..)

/-- A commit that R461 does not refuse, of an action of no step. -/
theorem axisCommit_of_plan_zero {s : State} {a : Fin 4} (hallowed : s.axisAllowed a = true)
    (hop : bits (s.reg (AXIS.MODE a)) 1 0 ≠ 1) (hplan : s.axisPlan a = 0) :
    s.axisCommit a = zeroEnded (s.commitNow pAXIS (a + 1)) a := by
  rw [State.axisCommit, if_pos hallowed, axisStart_of_plan_zero (by rwa [mode_commitNow]) (by rwa [axisPlan_commitNow]), zeroEnded]

/-- A MOVE to POS and a RELATIVE of 0 commit a staged group that R461 allows and that plans no step (R462). -/
theorem noStep_staged {s : State} {a : Fin 4} {c : Instr} (hw : risingFrom 0 s.regs = true) (hen : s.enabled pAXIS = true)
    (hidle : (s.axisOf a).st = 0) (hquiet : s.jobsQuiet = true) (hsplice : s.spliceAxis ≠ a.val ∨ s.web.spliceN = true)
    (hc : s.reg (AXIS.CMIN a) ≤ s.reg (AXIS.C0 a))
    (hact : (c = .move a ∧ (s.axisOf a).homed = true ∧ sInt 32 (s.reg (AXIS.TARGET a)) = (s.axisOf a).pos ∧ 0 ≤ (s.axisOf a).pos ∧
        (s.axisOf a).pos ≤ s.reg (AXIS.TRAVEL a)) ∨ (c = .relative a ∧ sInt 32 (s.reg (AXIS.TARGET a)) = 0)) :
    ∃ op, exec c s = .next (settle s (s.axisAct a op)) ∧ bits ((axisStaged s a op).reg (AXIS.MODE a)) 1 0 ≠ 1 ∧
      (axisStaged s a op).axisPlan a = 0 ∧ (axisStaged s a op).axisAllowed a = true := by
  have hallowed (op : Nat) := axisAllowed_of_plan_zero (s := axisStaged s a op) (a := a) (by rwa [enabled_axisStaged]) hidle hquiet hsplice
    (by rwa [cmin_axisStaged, c0_axisStaged])
  rcases hact with ⟨rfl, hhomed, htarget, hlo, hhi⟩ | ⟨rfl, htarget⟩
  · have hmode := mode_axisStaged hw a 0
    have hplan : (axisStaged s a 0).axisPlan a = 0 := by rw [axisPlan_staged_move hw, htarget, Int.sub_self]
    refine ⟨0, rfl, by simp [hmode], hplan, hallowed 0 (.inr ⟨hmode, hhomed, ?_, ?_⟩) hplan⟩
    · rwa [target_axisStaged, htarget]
    · rwa [target_axisStaged, travel_axisStaged, htarget]
  · have hmode := mode_axisStaged hw a 2
    have hplan : (axisStaged s a 2).axisPlan a = 0 := by rw [axisPlan_staged_relative hw, htarget]
    exact ⟨2, rfl, by simp [hmode], hplan, hallowed 2 (.inl hmode) hplan⟩

/-- Settles O45: the commit of no step hands over the group, ends the action with ZERO where the axis stands, and sends nothing but
messages of interrupts (R462, R464). -/
theorem noStepMove : Obligations.NoStepMove := by
  unfold Obligations.NoStepMove
  intro s a c hon hlen hw hen hidle hquiet hsplice hc hact
  obtain ⟨op, hexec, hop, hplan, hallowed⟩ := noStep_staged hw hen hidle hquiet hsplice hc hact
  rw [axisAct_eq, axisCommit_of_plan_zero hallowed hop hplan, settle, if_neg hon] at hexec
  have hrec := commitNow_recordsOnly (axisStaged s a op) pAXIS (a + 1)
  have hrising := hrec.rising (setReg_regs_rising (axisStaged_regs_rising hw a op) ..)
  generalize (axisStaged s a op).commitNow pAXIS (a + 1) = w at hrec hrising hexec
  have haxes : w.axes = s.axes := hrec.axes
  have ha : a < w.axes.length := by rw [haxes, hlen]; exact a.isLt
  have hidle' : ((settled s (zeroEnded w a)).axisOf a).st = 0 := by rw [axisOf_settled, zeroEnded_st ha]
  refine ⟨_, hexec, ?_, ?_, hidle', fun x d n h => ?_, exec_axisStep_of_idle hidle', ?_, ?_⟩
  · rw [readAxis_result, axisOf_settled, zeroEnded_result ha]
  · rw [axisOf_settled, zeroEnded_pos ha, axisOf_congr haxes]
  · have hout := step_mem_settled h
    rw [zeroEnded_out, hrec.out] at hout
    exact hout
  · rw [reg_settled, zeroEnded_done hrising]
  · rw [settled_mem, zeroEnded_mem, hrec.mem]
    rfl

end Sys2Proof.Proofs

namespace Sys2Proof.Proofs
open Sys2Proof Sys2Proof.Machine

/-! ### The presets of the check units (R564) -/

theorem chkParams_of_custom {cfg : Nat} (h : bits cfg 31 28 = 0) (poly init xorOut : Nat) :
    chkParams cfg poly init xorOut = ⟨bits cfg 22 16, poly, init, bit cfg 0, bit cfg 1, xorOut⟩ :=
  if_pos h

/-- A preset ignores the custom fields and registers. -/
theorem chkParams_of_preset {cfg k : Nat} (h : bits cfg 31 28 = k) (hk : k ≠ 0) (poly init xorOut : Nat) :
    chkParams cfg poly init xorOut = crcPreset k := by
  subst h
  exact if_neg hk

/-- The ASCII bytes "123456789" of the check column. -/
def asciiDigits : List Byte := [0x31, 0x32, 0x33, 0x34, 0x35, 0x36, 0x37, 0x38, 0x39]

/-- The check column, each value by evaluation of the folds of R563. -/
theorem crc_asciiDigits_of_preset :
    crc (crcPreset 1) asciiDigits = 0xE3069283 ∧ crc (crcPreset 2) asciiDigits = 0xCBF43926 ∧
    crc (crcPreset 3) asciiDigits = 0x995DC9BBDF1939FA ∧ crc (crcPreset 4) asciiDigits = 0x29B1 ∧
    crc (crcPreset 5) asciiDigits = 0xF4 := by
  decide +kernel

/-- Settles O26: PRESET 0 takes the custom parameters, each other PRESET its row of the table, and the check column is evaluated (R564). -/
theorem checkPresets : Obligations.CheckPresets := by
  unfold Obligations.CheckPresets
  refine ⟨fun cfg poly init xorOut => ⟨fun custom => ?_, fun crc32c => ?_, fun crc32 => ?_, fun crc64 => ?_, fun crc16 => ?_, fun crc8 => ?_⟩,
    crc_asciiDigits_of_preset⟩
  · exact chkParams_of_custom custom ..
  · exact chkParams_of_preset crc32c (by decide) ..
  · exact chkParams_of_preset crc32 (by decide) ..
  · exact chkParams_of_preset crc64 (by decide) ..
  · exact chkParams_of_preset crc16 (by decide) ..
  · exact chkParams_of_preset crc8 (by decide) ..

end Sys2Proof.Proofs
